-- ==== Sys2Proof/Word.lean ====
section
/-! DEFINITION. The bit widths of NY24-RBPWM (spec/10_state.md R18 to R34, spec/30_encoding.md R70).
All values are unsigned (spec/00_scope.md R11). -/

namespace Sys2Proof

/-- A 4-bit field: OPC, RSV, REG, EVT (R71, R72, R73). -/
abbrev Nibble := BitVec 4

/-- A ring buffer element, a source byte or IMM8 (`ELEM_W` = 8, R5). -/
abbrev Byte := BitVec 8

/-- A command word, TOP_REG, a compare value or the counter (R25, R27, R30, R70). -/
abbrev Half := BitVec 16

/-- SRCOFF, DIV, FILL_CNT, a register-view value or a response's data (R23, R26, R33, R34, R76). -/
abbrev Word := BitVec 32

end Sys2Proof
end

