-- ==== Sys2Proof/Config.lean ====
section
/-! DEFINITION. What a model instance fixes (spec/00_scope.md R5), the agents (R7), and the free values:
opaque constants of which nothing in Lean can prove a value. -/

namespace Sys2Proof

/-- The configuration record of R5. `src` holds SRC, and its length is SRC_LEN. The type of `pwmTop` is
its range 0..65535; the other ranges are `Config.WellFormed`. -/
structure Config where
  rbN : Nat
  clkHz : Nat
  pwmTop : Half
  targetRate : Nat
  fracBits : Nat
  divIntBits : Nat
  src : List Byte
  isrStrict : Bool
  deriving DecidableEq, Repr

/-- SRC_LEN (R5). -/
def Config.srcLen (c : Config) : Nat := c.src.length

/-- The configuration of `State.reset`: R5's defaults. R5 gives RB_N and SRC no default; they are those of
CFG-A in spec/95_test_vectors.md. DESIGN CHOICE, unsafe (log 1). -/
def Config.default : Config where
  rbN := 4
  clkHz := 133000000
  pwmTop := 512
  targetRate := 48800
  fracBits := 16
  divIntBits := 8
  src := [0x11, 0x22, 0x33]
  isrStrict := false

/-- ELEM_DEFAULT (R5): what an underrunning pop returns. -/
def elemDefault : Byte := 0

/-- Who takes a step (R7), and the reset logic (R74). -/
inductive Agent where
  | host
  | disp
  | tmr
  | resetLogic
  deriving DecidableEq, Repr, Inhabited

/-- FREE VALUE: what slot `i` holds after the `r`-th RESET, before anything writes it
(R38 "unspecified", R242; safe, log 2). -/
opaque Config.unspecifiedSlot (r i : Nat) : Byte

/-- FREE VALUE: the agent that moves when the schedule held in State is used up
(R208: the schedule is free; safe, log 4). -/
opaque Config.freeAgent (n : Nat) : Agent

end Sys2Proof
end

