-- ==== Sys2Proof/Syntax.lean ====
section
/-! DEFINITION. The instructions: one constructor per row of spec/opcode_table.json. -/

namespace Sys2Proof

/-- The six commands of Format C and the three internal steps of Format V (spec/30_encoding.md R74). -/
inductive Instr where
  | nop
  | init
  | push (v : Byte)
  | pop
  | fill
  | rdreg (r : Nibble)
  | reset
  | tick
  | dispatch
  deriving DecidableEq, Repr

end Sys2Proof
end

