-- ==== Sys2Proof/WellFormed.lean ====
section
/-! DEFINITION. The checks that the types leave open: the ranges of a configuration (spec/00_scope.md R5)
and the operands the assembler accepts (spec/30_encoding.md R79). -/

namespace Sys2Proof

/-- The ranges of R5. -/
abbrev Config.WellFormed (c : Config) : Prop :=
  2 ≤ c.rbN ∧ c.rbN ≤ 65536 ∧ c.divIntBits + c.fracBits ≤ 32 ∧ c.srcLen ≤ 2 ^ 30

/-- The instruction is a command that HOST presents, not an internal step (R70). -/
def Instr.isCommand : Instr → Bool
  | .nop => true
  | .init => true
  | .push _ => true
  | .pop => true
  | .fill => true
  | .rdreg _ => true
  | .reset => false
  | .tick => false
  | .dispatch => false

/-- The assembler can emit the instruction (R79): a command whose register index, if any, is 0..10.
Every instruction is well formed for the machine, since the operand widths are in the types, and
RDREG 11..15 decodes (R81). -/
def Instr.Assembles (i : Instr) : Bool :=
  match i with
  | .rdreg r => decide (r.toNat ≤ 10)
  | j => j.isCommand

end Sys2Proof
end

