-- ==== Sys2Proof/Decode.lean ====
section
/-! DEFINITION. Decoding (spec/30_encoding.md R70 to R75, R81) and, after it, the encoder written from the
same tables. A word arrives on the command port or names an internal step, and its length is known from
where it arrives (R70). Nothing is read as bytes (spec/20_memory.md R54). -/

namespace Sys2Proof

/-- Why a word names no instruction (R72, R75). -/
inductive Illegal where
  | reservedBits (rsv : Nibble)
  | reservedOpcode (opc : Nibble)
  | operandBits (imm : Byte)
  | noSuchStep (evt : Nibble)
  deriving DecidableEq, Repr

/-- A word with the port it arrives on (R70). -/
inductive Encoded where
  | command (w : Half)
  | stepId (evt : Nibble)
  deriving DecidableEq, Repr

/-- OPC, bits [15:12] (R71). -/
def cmdOpc (w : Half) : Nibble := w.extractLsb' 12 4

/-- RSV, bits [11:8] (R71). -/
def cmdRsv (w : Half) : Nibble := w.extractLsb' 8 4

/-- IMM8, bits [7:0] (R71). -/
def cmdImm (w : Half) : Byte := w.extractLsb' 0 8

/-- A command without an operand: IMM8 must be 0 (R73). -/
def decodeNoOperand (imm : Byte) (i : Instr) : Except Illegal Instr :=
  if imm = 0 then .ok i else .error (.operandBits imm)

/-- RDREG's index is IMM8[3:0], and IMM8[7:4] must be 0 (R73). -/
def decodeRegister (imm : Byte) : Except Illegal Instr :=
  if imm.extractLsb' 4 4 = 0 then .ok (.rdreg (imm.extractLsb' 0 4)) else .error (.operandBits imm)

/-- The decoder of R81, total over all 2^16 command words. -/
def decodeCommand (w : Half) : Except Illegal Instr :=
  if cmdRsv w ≠ 0 then .error (.reservedBits (cmdRsv w))
  else
    match (cmdOpc w).toNat with
    | 0 => decodeNoOperand (cmdImm w) .nop
    | 1 => decodeNoOperand (cmdImm w) .init
    | 2 => .ok (.push (cmdImm w))
    | 3 => decodeNoOperand (cmdImm w) .pop
    | 4 => decodeNoOperand (cmdImm w) .fill
    | 5 => decodeRegister (cmdImm w)
    | _ => .error (.reservedOpcode (cmdOpc w))

/-- The step identifiers of R72; 0x0 and 0x4 to 0xF name no step. -/
def decodeStepId (evt : Nibble) : Except Illegal Instr :=
  match evt.toNat with
  | 1 => .ok .reset
  | 2 => .ok .tick
  | 3 => .ok .dispatch
  | _ => .error (.noSuchStep evt)

/-- Decoding at either port (R70). -/
def decode : Encoded → Except Illegal Instr
  | .command w => decodeCommand w
  | .stepId evt => decodeStepId evt

/-- A command word from its fields, RSV = 0 (R71). -/
def commandWord (opc : Nibble) (imm : Byte) : Half := opc ++ ((0 : Nibble) ++ imm)

/-- The encoder, from the opcode map of R74. -/
def encode : Instr → Encoded
  | .nop => .command (commandWord 0x0 0)
  | .init => .command (commandWord 0x1 0)
  | .push v => .command (commandWord 0x2 v)
  | .pop => .command (commandWord 0x3 0)
  | .fill => .command (commandWord 0x4 0)
  | .rdreg r => .command (commandWord 0x5 ((0 : Nibble) ++ r))
  | .reset => .stepId 0x1
  | .tick => .stepId 0x2
  | .dispatch => .stepId 0x3

/-- The decoder at the numbering of spec/opcode_table.json. A row of at most one byte is a Format V
identifier of 4 bits, and a longer row is a command word of 16 (R70; log 12). A number that does not fit
its format is refused. -/
def decodeTableWord (nbits w : Nat) : Option Instr :=
  if nbits ≤ 8 then
    if w < 16 then (decodeStepId (BitVec.ofNat 4 w)).toOption else none
  else if w < 65536 then (decodeCommand (BitVec.ofNat 16 w)).toOption
  else none

end Sys2Proof
end

