-- ==== Sys2Proof/Machine/State.lean ====
section
/-! DEFINITION. The state of NY24-RBPWM (spec/10_state.md), the command port's record (spec/30_encoding.md R76),
and the machine after reset (spec/10_state.md R38). -/

namespace Sys2Proof.Machine

/-- ENG, the engine state (R24). -/
inductive Eng where
  | uninit
  | configured
  | running
  | faulted
  deriving DecidableEq, Repr

/-- The fault codes of spec/60_exceptions.md R200; code 7 is reserved and has no constructor. -/
inductive FaultCode where
  | noFault
  | misconfig
  | uninit
  | reinit
  | illegal
  | spsc
  | halted
  deriving DecidableEq, Repr

/-- The response record of spec/30_encoding.md R76. -/
structure Response where
  err : Bool
  code : FaultCode
  data : Word
  deriving DecidableEq, Repr

/-- RBMEM as the slots something has written since RESET, by strictly rising index. A slot that is not
listed holds an unspecified byte (R38; log 2), so no listed entry equals what an unlisted slot reads as. -/
abbrev Memory := List Host.Cell

/-- Everything spec/10_state.md gives the block, the configuration it runs under, and the host side of the
command port. -/
structure State where
  /-- The configuration (spec/00_scope.md R5); no step writes it. -/
  cfg : Config
  /-- RBMEM (R18). -/
  mem : Memory
  /-- RD, the read cursor (R19). -/
  rd : Nat
  /-- WR, the write cursor (R20). -/
  wr : Nat
  /-- SRCOFF (R23). -/
  srcOff : Word
  /-- ENG (R24). -/
  eng : Eng
  /-- TOP_REG (R25). -/
  topReg : Half
  /-- DIV (R26). -/
  div : Word
  /-- CC_A (R27). -/
  ccA : Half
  /-- CC_B (R27). -/
  ccB : Half
  /-- INV_A (R28). -/
  invA : Bool
  /-- INV_B (R28). -/
  invB : Bool
  /-- PWM_EN (R29). -/
  pwmEn : Bool
  /-- INTE (R29). -/
  inte : Bool
  /-- UNMASK (R29). -/
  unmask : Bool
  /-- CTR (R30). -/
  ctr : Half
  /-- WRAP_FLAG (R31). -/
  wrapFlag : Bool
  /-- FAULT (R32). -/
  fault : FaultCode
  /-- FILL_BUSY (R33). -/
  fillBusy : Bool
  /-- FILL_CNT (R33). -/
  fillCnt : Word
  /-- The command words HOST has yet to present, oldest first (R17; DESIGN CHOICE, log 5). -/
  port : List Half
  /-- The agents that move next, oldest first (R7, R208; DESIGN CHOICE, log 4). -/
  sched : List Agent
  /-- How many agents were drawn from `Config.freeAgent` (log 4). -/
  draws : Nat
  /-- How many RESET steps were taken: the index of RBMEM's unspecified contents (log 2). -/
  resets : Nat
  /-- The responses delivered so far, oldest first (spec/00_scope.md R10; log 6). -/
  responses : List Response
  /-- The values written to (CC_A, CC_B) by INIT and DISPATCH so far, oldest first (R10; log 6). -/
  compares : List (Half × Half)
  deriving DecidableEq, Repr

/-- What stops the machine. The faults of spec/60_exceptions.md are not here: they are next states (log 8). -/
inductive Fault where
  /-- An access to RBMEM at an index outside [0, RB_N), which does not exist (spec/20_memory.md R50). Raised by
  PUSH, POP, DISPATCH and the FILL iteration in a state whose cursor is out of range; no reachable state
  is (R39(a)). Safe (log 9). -/
  | slotOutside (index : Nat)
  /-- A read of SRCROM at an index outside [0, SRC_LEN), which does not exist (R50, R52). Raised by the FILL
  iteration in a state whose SRCOFF is out of range; no reachable state with FILL_BUSY = 1 is (R39(c)).
  Safe (log 9). -/
  | sourceOutside (index : Nat)
  deriving DecidableEq, Repr

/-- Why an instruction has no meaning. -/
inductive Refusal where
  /-- Raised by `exec` for an instruction not modelled yet; every instruction is modelled. Safe. -/
  | notModelled (mnemonic : String)
  deriving DecidableEq, Repr

/-- What a step answers. -/
abbrev Result := Host.Outcome State Fault Refusal

/-- The machine after RESET (R38): everything 0, ENG = UNINIT, no slot written. The configuration is
`Config.default` (log 1), and the host side is empty (logs 4, 5, 6). -/
def State.reset : State where
  cfg := Config.default
  mem := []
  rd := 0
  wr := 0
  srcOff := 0
  eng := .uninit
  topReg := 0
  div := 0
  ccA := 0
  ccB := 0
  invA := false
  invB := false
  pwmEn := false
  inte := false
  unmask := false
  ctr := 0
  wrapFlag := false
  fault := .noFault
  fillBusy := false
  fillCnt := 0
  port := []
  sched := []
  draws := 0
  resets := 0
  responses := []
  compares := []

end Sys2Proof.Machine
end

