-- ==== Sys2Proof/Machine/Flags.lean ====
section
/-! DEFINITION. The flags, which are computed and not stored (spec/00_scope.md R12, spec/10_state.md R22), the
enabling conditions of the internal steps, and the bits of the coded fields. -/

namespace Sys2Proof.Machine

/-- ENG as 2 bits (R24). -/
def Eng.bits : Eng → BitVec 2
  | .uninit => 0
  | .configured => 1
  | .running => 2
  | .faulted => 3

/-- A fault code as 3 bits (spec/60_exceptions.md R200). -/
def FaultCode.bits : FaultCode → BitVec 3
  | .noFault => 0
  | .misconfig => 1
  | .uninit => 2
  | .reinit => 3
  | .illegal => 4
  | .spsc => 5
  | .halted => 6

/-- The cursor that follows `p`: `(p + 1) mod RB_N`. -/
def State.nextCursor (s : State) (p : Nat) : Nat := (p + 1) % s.cfg.rbN

/-- EMPTY (R12). -/
def State.empty (s : State) : Bool := s.rd == s.wr

/-- FULL (R12). -/
def State.full (s : State) : Bool := s.nextCursor s.wr == s.rd

/-- COUNT, `(WR - RD) mod RB_N`, for RD within RB_N as R19 has it (R12). -/
def State.count (s : State) : Nat := (s.wr + s.cfg.rbN - s.rd) % s.cfg.rbN

/-- IRQ, the request line (R12, R31). -/
def State.irq (s : State) : Bool := s.wrapFlag && s.inte && s.unmask

/-- DISPATCH is enabled (spec/43_pwm_dispatch.md R172). -/
def State.dispatchEnabled (s : State) : Bool := s.eng == .running && s.irq

/-- HOST has no step: ISR_STRICT with the interrupt asserted (spec/60_exceptions.md R208). -/
def State.hostBlocked (s : State) : Bool := s.cfg.isrStrict && s.dispatchEnabled

end Sys2Proof.Machine
end

