-- ==== Sys2Proof/Machine/Operands.lean ====
section
/-! DEFINITION. What the operands select: the register view of RDREG (spec/10_state.md R34 to R36), and the
constants derived from the configuration (spec/00_scope.md R5, R6). -/

namespace Sys2Proof.Machine

/-- SRC_MOD (R6). -/
def srcMod (c : Config) : Nat := 2 * c.srcLen

/-- DIV_RAW_MAX, the largest representable raw divider (R6). -/
def divRawMax (c : Config) : Nat := 2 ^ (c.divIntBits + c.fracBits) - 1

/-- DIV_ONE, the raw value of a divider of 1.0 (R6). -/
def divOne (c : Config) : Nat := 2 ^ c.fracBits

/-- PTR_W, the cursors' width (R5). -/
def ptrW (c : Config) : Nat := Nat.clog 2 c.rbN

/-- One bit. -/
def bit (b : Bool) : BitVec 1 := BitVec.ofBool b

/-- The STATUS word, high fields first (R35). -/
def State.status (s : State) : Word :=
  BitVec.ofNat 16 s.count ++ ((0 : BitVec 5) ++ (s.fault.bits ++ ((0 : BitVec 2) ++ (bit s.irq ++
    (bit s.wrapFlag ++ (s.eng.bits ++ (bit s.full ++ bit s.empty)))))))

/-- The CTRL word, high fields first (R36). -/
def State.ctrl (s : State) : Word :=
  (0 : BitVec 27) ++ (bit s.unmask ++ (bit s.inte ++ (bit s.invB ++ (bit s.invA ++ bit s.pwmEn))))

/-- The register view (R34); the indices 11 to 15 are reserved. -/
def State.view (s : State) (r : Nibble) : Option Word :=
  match r.toNat with
  | 0 => some s.status
  | 1 => some (BitVec.ofNat 32 s.rd)
  | 2 => some (BitVec.ofNat 32 s.wr)
  | 3 => some s.srcOff
  | 4 => some (s.topReg.setWidth 32)
  | 5 => some s.div
  | 6 => some (s.ccA.setWidth 32)
  | 7 => some (s.ccB.setWidth 32)
  | 8 => some s.ctrl
  | 9 => some (BitVec.ofNat 32 s.cfg.rbN)
  | 10 => some (s.ctr.setWidth 32)
  | _ => none

/-- PUSH's response data: 1 if inserted, 0 if full (R76). -/
def pushData (ok : Bool) : Word := (bit ok).setWidth 32

/-- POP's response data, `{23'b0, underrun, v}` (R76). -/
def popData (underrun : Bool) (v : Byte) : Word := (0 : BitVec 23) ++ (bit underrun ++ v)

end Sys2Proof.Machine
end

