-- ==== Sys2Proof/Machine/Ops.lean ====
section
/-! DEFINITION. The named operations over memory and state that the meanings share: slot and source access,
the ring buffer core (spec/40_ring_buffer.md), the response, the fault outcome (spec/60_exceptions.md R201), RESET,
and whose turn it is. The interrupt has no entry or return operation: DISPATCH saves and restores
nothing (R209, R210). -/

namespace Sys2Proof.Machine

/-- The byte listed for slot `a`, if any. -/
def Memory.read (m : Memory) (a : Nat) : Option Byte :=
  match m with
  | [] => none
  | c :: rest => if a = c.1 then some c.2 else Memory.read rest a

/-- The memory with `v` in slot `a`, kept in rising order. -/
def Memory.write (m : Memory) (a : Nat) (v : Byte) : Memory :=
  match m with
  | [] => [(a, v)]
  | c :: rest =>
    if a < c.1 then (a, v) :: c :: rest
    else if a = c.1 then (a, v) :: rest
    else c :: Memory.write rest a v

/-- The canonical form: strictly rising indices. -/
abbrev Memory.wf (m : Memory) : Prop := List.Pairwise (fun c d => c.1 < d.1) m

/-- Slots 0 to n-1 written with 0 (spec/41_engine.md R123, 3). -/
def Memory.zeros (n : Nat) : Memory := (List.range n).map fun i => (i, 0)

/-- What slot `i` holds: the byte written last, or the unspecified byte RESET left (log 2). -/
def State.slotValue (s : State) (i : Nat) : Byte :=
  (Memory.read s.mem i).getD (Config.unspecifiedSlot s.resets i)

/-- `MemRead(RBMEM:i, 1)` (R11). -/
def State.readSlot (s : State) (i : Nat) : Except Fault Byte :=
  if i < s.cfg.rbN then .ok (s.slotValue i) else .error (.slotOutside i)

/-- `MemWrite(RBMEM:i, 1, v)` (R11). -/
def State.writeSlot (s : State) (i : Nat) (v : Byte) : Except Fault State :=
  if i < s.cfg.rbN then .ok { s with mem := Memory.write s.mem i v } else .error (.slotOutside i)

/-- `MemRead(SRCROM:i, 1)` (R11, R52). -/
def State.readSource (s : State) (i : Nat) : Except Fault Byte :=
  match s.cfg.src[i]? with
  | some b => .ok b
  | none => .error (.sourceOutside i)

/-- WR moves on by one (R100). -/
def State.advanceWr (s : State) : State := { s with wr := s.nextCursor s.wr }

/-- RD moves on by one (R101). -/
def State.advanceRd (s : State) : State := { s with rd := s.nextCursor s.rd }

/-- `rb_push` (R100): whether the element was inserted, and the state after. -/
def State.rbPush (s : State) (v : Byte) : Except Fault (Bool × State) :=
  if s.full then .ok (false, s)
  else
    match s.writeSlot s.wr v with
    | .error f => .error f
    | .ok s' => .ok (true, s'.advanceWr)

/-- `rb_pop` (R101): underrun, the value, and the state after. -/
def State.rbPop (s : State) : Except Fault (Bool × Byte × State) :=
  if s.empty then .ok (true, elemDefault, s)
  else
    match s.readSlot s.rd with
    | .error f => .error f
    | .ok v => .ok (false, v, s.advanceRd)

/-- A response with `err = 0` (R76). -/
def Response.success (d : Word) : Response := { err := false, code := .noFault, data := d }

/-- A response with `err = 1` (R76). -/
def Response.failure (c : FaultCode) : Response := { err := true, code := c, data := 0 }

/-- `respond(d)` (R11). -/
def State.respond (s : State) (d : Word) : State :=
  { s with responses := s.responses ++ [Response.success d] }

/-- FAULT keeps the first code (R32). -/
def firstFault (old new : FaultCode) : FaultCode := if old = .noFault then new else old

/-- `raise Fault(c)` (R201): taking a fault. -/
def State.raise (s : State) (c : FaultCode) : State :=
  { s with fault := firstFault s.fault c, responses := s.responses ++ [Response.failure c] }

/-- CC_A and CC_B are written together (spec/43_pwm_dispatch.md R173), and the pair is observed (R10). -/
def State.commitCompare (s : State) (v : Half) : State :=
  { s with ccA := v, ccB := v, compares := s.compares ++ [(v, v)] }

/-- WRAP_FLAG <- 0. -/
def State.clearWrap (s : State) : State := { s with wrapFlag := false }

/-- RESET (spec/70_reset_and_hazards.md R240): every piece of the block's state takes its reset value. The
configuration, the host's pending words, the schedule and what was observed are not the block's
state and stay (log 21); RBMEM's unspecified contents are new ones (log 2). -/
def State.afterReset (s : State) : State :=
  { State.reset with
    cfg := s.cfg, port := s.port, sched := s.sched, draws := s.draws, resets := s.resets + 1,
    responses := s.responses, compares := s.compares }

/-- Whose turn it is: the next entry of the schedule, and a free agent once it is used up (log 4). -/
def State.takeTurn (s : State) : Agent × State :=
  match s.sched with
  | a :: rest => (a, { s with sched := rest })
  | [] => (Config.freeAgent s.draws, { s with draws := s.draws + 1 })

/-- HOST presents `w` next, on its next turn, which comes next. A FILL in progress, or a blocked HOST, would
put the command off (spec/42_system.md R152, R208), so neither is left (log 11). -/
def State.presentCommand (s : State) (w : Half) : State :=
  { s with
    cfg := { s.cfg with isrStrict := s.cfg.isrStrict && !s.dispatchEnabled }
    fillBusy := false, port := w :: s.port, sched := Agent.host :: s.sched }

/-- The agent of an internal step moves next (spec/30_encoding.md R72, R74). An identifier that names no step
schedules nothing. -/
def State.scheduleStep (s : State) (evt : Nibble) : State :=
  match evt.toNat with
  | 1 => { s with sched := Agent.resetLogic :: s.sched }
  | 2 => { s with sched := Agent.tmr :: s.sched }
  | 3 => { s with sched := Agent.disp :: s.sched }
  | _ => s

end Sys2Proof.Machine
end

