-- ==== Sys2Proof/Machine/Engine.lean ====
section
/-! DEFINITION. INIT, FILL and the FILL iteration (spec/41_engine.md). -/

namespace Sys2Proof.Machine

/-- `div_raw()` in exact integer arithmetic (R121). -/
def divRaw (c : Config) : Nat := (2 ^ c.fracBits * c.clkHz) / (c.pwmTop.toNat * c.targetRate)

/-- `misconfig()` (R122). -/
def misconfig (c : Config) : Bool :=
  if c.srcLen = 0 then true
  else if c.clkHz = 0 ∨ c.targetRate = 0 then true
  else if c.pwmTop = 0 then true
  else if divRaw c < divOne c then true
  else if divRaw c > divRawMax c then true
  else false

/-- `init_effects(d)` (R123). -/
def State.initEffects (s : State) (d : Nat) : State :=
  { s with
    topReg := s.cfg.pwmTop
    div := BitVec.ofNat 32 d
    invA := false
    invB := true
    ctr := 0
    pwmEn := true
    mem := Memory.zeros s.cfg.rbN
    rd := 0
    wr := 0
    wrapFlag := false
    inte := true
    unmask := true
    eng := .running
    srcOff := 0 }.commitCompare (s.cfg.pwmTop >>> 1)

/-- The failed INIT: ENG <- FAULTED before the fault is raised (R120). -/
def State.haltEngine (s : State) : State := { s with eng := .faulted }

/-- INIT (R120). -/
def execInit (s : State) : Result :=
  if s.eng = .faulted then .next (s.raise .halted)
  else if s.eng ≠ .uninit then .next (s.raise .reinit)
  else if misconfig s.cfg then .next (s.haltEngine.raise .misconfig)
  else .next ((s.initEffects (divRaw s.cfg)).respond 0)

/-- The acceptance of a FILL: no response yet (R130). -/
def State.acceptFill (s : State) : State := { s with fillBusy := true, fillCnt := 0 }

/-- FILL, the accepting step (R130). -/
def execFill (s : State) : Result :=
  if s.eng = .faulted then .next (s.raise .halted)
  else if s.eng ≠ .running then .next (s.raise .uninit)
  else .next s.acceptFill

/-- After a successful fill push: SRCOFF and FILL_CNT move on (R131). -/
def State.advanceFill (s : State) : State :=
  { s with
    srcOff := BitVec.ofNat 32 ((s.srcOff.toNat + 1) % srcMod s.cfg)
    fillCnt := s.fillCnt + 1 }

/-- After a fill push that found the buffer full: the FILL command completes (R131). -/
def State.finishFill (s : State) : State := { s with fillBusy := false }.respond s.fillCnt

/-- FILL_ITER, one atomic HOST step (R131). -/
def fillIter (s : State) : Result :=
  match s.readSource (s.srcOff.toNat / 2) with
  | .error f => .fault f
  | .ok v =>
    match s.rbPush v with
    | .error f => .fault f
    | .ok (true, s') => .next s'.advanceFill
    | .ok (false, s') => .next s'.finishFill

end Sys2Proof.Machine
end

