-- ==== Sys2Proof/Machine/Pwm.lean ====
section
/-! DEFINITION. TICK and DISPATCH (spec/43_pwm_dispatch.md), and the channel outputs. A step that is not enabled
leaves the state as it is: its agent takes no step (log 7). -/

namespace Sys2Proof.Machine

/-- The counter advances; at TOP_REG it wraps and sets the wrap flag (R170). -/
def State.advanceCounter (s : State) : State :=
  if s.ctr = s.topReg then { s with ctr := 0, wrapFlag := true } else { s with ctr := s.ctr + 1 }

/-- TICK (R170), enabled while PWM_EN = 1. -/
def execTick (s : State) : Result := .next (if s.pwmEn then s.advanceCounter else s)

/-- DISPATCH (R172), enabled while ENG = RUNNING and IRQ = 1. -/
def execDispatch (s : State) : Result :=
  if s.dispatchEnabled then
    match s.rbPop with
    | .error f => .fault f
    | .ok (_, v, s') => .next (s'.commitCompare (v.setWidth 16)).clearWrap
  else .next s

/-- OUT_A (R175, informative). PRESUMED, unsafe (log 13). -/
def State.outA (s : State) : Bool := xor (decide (s.ctr.toNat < s.ccA.toNat)) s.invA

/-- OUT_B (R175, informative). PRESUMED, unsafe (log 13). -/
def State.outB (s : State) : Bool := xor (decide (s.ctr.toNat < s.ccB.toNat)) s.invB

end Sys2Proof.Machine
end

