-- ==== Sys2Proof/Machine/RingBuffer.lean ====
section
/-! DEFINITION. PUSH and POP (spec/40_ring_buffer.md). -/

namespace Sys2Proof.Machine

/-- PUSH (R100). -/
def execPush (v : Byte) (s : State) : Result :=
  if s.eng = .faulted then .next (s.raise .halted)
  else
    match s.rbPush v with
    | .error f => .fault f
    | .ok (ok, s') => .next (s'.respond (pushData ok))

/-- POP (R101). -/
def execPop (s : State) : Result :=
  if s.eng = .faulted then .next (s.raise .halted)
  else if s.eng = .running then .next (s.raise .spsc)
  else
    match s.rbPop with
    | .error f => .fault f
    | .ok (u, v, s') => .next (s'.respond (popData u v))

end Sys2Proof.Machine
end

