-- ==== Sys2Proof/Machine/System.lean ====
section
/-! DEFINITION. NOP and RDREG (spec/42_system.md), and RESET (spec/70_reset_and_hazards.md). -/

namespace Sys2Proof.Machine

/-- NOP (R150). -/
def execNop (s : State) : Result := .next (s.respond 0)

/-- RDREG (R151): a reserved index faults. -/
def execRdreg (r : Nibble) (s : State) : Result :=
  match s.view r with
  | some d => .next (s.respond d)
  | none => .next (s.raise .illegal)

/-- RESET (R240). -/
def execReset (s : State) : Result := .next s.afterReset

end Sys2Proof.Machine
end

