-- ==== Sys2Proof/Machine/Agents.lean ====
section
/-! DEFINITION. What each agent does on its turn (spec/00_scope.md R7, spec/42_system.md R152, spec/60_exceptions.md R202
and R208). An agent that has no step leaves the state as it is (log 7). -/

namespace Sys2Proof.Machine

/-- HOST presents a word: a legal one runs, an illegal one is a fault in every ENG (R202). -/
def runCommand (w : Half) (s : State) : Result :=
  match decodeCommand w with
  | .ok i => exec i s
  | .error _ => .next (s.raise .illegal)

/-- HOST's turn: nothing while it is blocked (R208); the next iteration of a FILL in progress (R131, R152);
else the next word of the port, if the host has one (R17). -/
def hostTurn (s : State) : Result :=
  if s.hostBlocked then .next s
  else if s.fillBusy then fillIter s
  else
    match s.port with
    | [] => .next s
    | w :: rest => runCommand w { s with port := rest }

/-- One turn of an agent. -/
def agentTurn (a : Agent) (s : State) : Result :=
  match a with
  | .host => hostTurn s
  | .disp => exec .dispatch s
  | .tmr => exec .tick s
  | .resetLogic => exec .reset s

/-- The agent has a step (R131, R152, R170, R172, R208, R240). -/
def agentEnabled (a : Agent) (s : State) : Bool :=
  match a with
  | .host => !s.hostBlocked && (s.fillBusy || !s.port.isEmpty)
  | .disp => s.dispatchEnabled
  | .tmr => s.pwmEn
  | .resetLogic => true

end Sys2Proof.Machine
end

