-- ==== Sys2Proof/Machine/Step.lean ====
section
/-! DEFINITION. One step: the agent whose turn it is moves (spec/00_scope.md R7, R60). -/

namespace Sys2Proof.Machine

/-- One step. -/
def step (s : State) : Host.Outcome State Fault Refusal := agentTurn s.takeTurn.1 s.takeTurn.2

/-- `s` with the instruction of opcode-table bits `w` as the one the next step runs: a command word on the
port with HOST's turn next, or the turn of an internal step's agent (log 11, log 12). -/
def State.withFetchWord (s : State) (nbits w : Nat) : State :=
  if nbits ≤ 8 then s.scheduleStep (BitVec.ofNat 4 w) else s.presentCommand (BitVec.ofNat 16 w)

end Sys2Proof.Machine
end

