-- ==== Sys2Proof/Machine/Asm.lean ====
section
/-! DEFINITION. The assembler (spec/30_encoding.md R79, R80). Text is a list of characters, one line at a time.
What R79 and R80 leave open of the text is DESIGN CHOICE, safe (log 19). -/

namespace Sys2Proof.Machine

/-- A line of source: a command (R79), a pseudo-instruction (R80), or the written form of an internal step. -/
inductive AsmLine where
  | nop
  | init
  | push (v : Nat)
  | pop
  | fill
  | rdreg (r : Nat)
  | status
  | pushn (vs : List Nat)
  | step (a : Agent)
  deriving DecidableEq, Repr

/-- The command word of an instruction of Format C. -/
def wordOf (i : Instr) : Option Half :=
  match encode i with
  | .command w => some w
  | .stepId _ => none

/-- The word of `PUSH v`; a value outside 0..255 is refused (R79). -/
def asmPush (v : Nat) : Option Half := if v ≤ 255 then wordOf (.push (BitVec.ofNat 8 v)) else none

/-- The words a line stands for; none where the assembler refuses it (R79, R80). An internal step has no
word, since the host does not issue it. -/
def assemble : AsmLine → Option (List Half)
  | .nop => (wordOf .nop).map fun w => [w]
  | .init => (wordOf .init).map fun w => [w]
  | .push v => (asmPush v).map fun w => [w]
  | .pop => (wordOf .pop).map fun w => [w]
  | .fill => (wordOf .fill).map fun w => [w]
  | .rdreg r => if r ≤ 10 then (wordOf (.rdreg (BitVec.ofNat 4 r))).map fun w => [w] else none
  | .status => (wordOf (.rdreg 0)).map fun w => [w]
  | .pushn vs => vs.mapM asmPush
  | .step _ => some []

/-- The pieces of `cs` between the characters `p` holds of, empty pieces left out: several spaces
separate as one does, and a PUSHN value that is empty stands for nothing. DESIGN CHOICE (log 19). -/
def pieces (p : Char → Bool) (cs : List Char) : List (List Char) :=
  (cs.foldr
    (fun c acc =>
      if p c then [] :: acc
      else match acc with
        | [] => [[c]]
        | w :: ws => (c :: w) :: ws)
    []).filter (fun w => !w.isEmpty)

/-- The value of a hexadecimal digit. -/
def digitValue (c : Char) : Option Nat :=
  let n := c.toNat
  if 48 ≤ n ∧ n ≤ 57 then some (n - 48)
  else if 65 ≤ n ∧ n ≤ 70 then some (n - 55)
  else if 97 ≤ n ∧ n ≤ 102 then some (n - 87)
  else none

/-- Digits in a base, at least one. -/
def parseDigits (base : Nat) (cs : List Char) : Option Nat :=
  if cs.isEmpty then none
  else cs.foldl
    (fun acc c => acc.bind fun n => (digitValue c).bind fun d => if d < base then some (n * base + d) else none)
    (some 0)

/-- A decimal or `0x` hexadecimal number (R79). -/
def parseNumber : List Char → Option Nat
  | '0' :: 'x' :: rest => parseDigits 16 rest
  | cs => parseDigits 10 cs

/-- The register names of R79 with their indices of spec/10_state.md R34. -/
def registerNames : List (List Char × Nat) :=
  [(['S', 'T', 'A', 'T', 'U', 'S'], 0), (['R', 'D', 'P', 'T', 'R'], 1), (['W', 'R', 'P', 'T', 'R'], 2),
   (['S', 'R', 'C', 'O', 'F', 'F'], 3), (['T', 'O', 'P'], 4), (['D', 'I', 'V'], 5), (['C', 'C', 'A'], 6),
   (['C', 'C', 'B'], 7), (['C', 'T', 'R', 'L'], 8), (['C', 'A', 'P'], 9), (['C', 'T', 'R'], 10)]

/-- RDREG's operand: a number, or a register's name (R79). -/
def parseRegister (cs : List Char) : Option Nat :=
  match registerNames.lookup cs with
  | some r => some r
  | none => parseNumber cs

/-- A mnemonic without an operand, and the steps in angle brackets (R79, R80). -/
def bareLines : List (List Char × AsmLine) :=
  [(['N', 'O', 'P'], .nop), (['I', 'N', 'I', 'T'], .init), (['P', 'O', 'P'], .pop), (['F', 'I', 'L', 'L'], .fill),
   (['S', 'T', 'A', 'T', 'U', 'S'], .status), (['<', 'T', 'I', 'C', 'K', '>'], .step .tmr),
   (['<', 'D', 'I', 'S', 'P', 'A', 'T', 'C', 'H', '>'], .step .disp),
   (['<', 'R', 'E', 'S', 'E', 'T', '>'], .step .resetLogic)]

/-- One line of text without its comment: the tokens between spaces. `PUSHN 1,,2` and `PUSHN 1,` are read without
their empty values, and `PUSHN ,` has no value and so emits no word, where R80 gives only `<v1>,...,<vk>`.
DESIGN CHOICE (log 19). -/
def parseTokens : List (List Char) → Option AsmLine
  | [m] => bareLines.lookup m
  | [m, x] =>
    if m = ['P', 'U', 'S', 'H'] then (parseNumber x).map .push
    else if m = ['R', 'D', 'R', 'E', 'G'] then (parseRegister x).map .rdreg
    else if m = ['P', 'U', 'S', 'H', 'N'] then
      ((pieces (fun c => c == ',') x).mapM parseNumber).map .pushn
    else none
  | _ => none

/-- One line of text: `some none` where it holds only a comment or nothing, `none` where it is refused. -/
def parseLine (cs : List Char) : Option (Option AsmLine) :=
  match pieces (fun c => c == ' ') (cs.takeWhile fun c => c != ';') with
  | [] => some none
  | ts => (parseTokens ts).map some

end Sys2Proof.Machine
end

