-- ==== Sys2Proof/Safety.lean ====
section
/-! DEFINITION. What claims are stated in: the invariant of spec/10_state.md R39, the buffer's content as a queue
(spec/20_memory.md R62), finite runs, and the fairness of spec/00_scope.md R9. -/

namespace Sys2Proof.Machine

/-- Every slot in the cyclic range [RD, WR) has been written (spec/20_memory.md R53). -/
abbrev State.LiveSlotsWritten (s : State) : Prop :=
  ∀ k < s.count, (Memory.read s.mem ((s.rd + k) % s.cfg.rbN)).isSome = true

/-- Every listed slot is one of the RB_N slots (R50). -/
abbrev State.SlotsInRange (s : State) : Prop := ∀ c ∈ s.mem, c.1 < s.cfg.rbN

/-- What holds while ENG = RUNNING (R39(c), and what INIT leaves, spec/41_engine.md R123). -/
abbrev State.RunningOk (s : State) : Prop :=
  s.srcOff.toNat < srcMod s.cfg ∧ s.topReg = s.cfg.pwmTop ∧ s.topReg ≠ 0 ∧ s.ctr ≤ s.topReg ∧
    s.div = BitVec.ofNat 32 (divRaw s.cfg) ∧ s.pwmEn = true ∧ s.inte = true ∧ s.unmask = true ∧
    s.invA = false ∧ s.invB = true

/-- What holds while ENG is not RUNNING: nothing is enabled and no FILL is in progress (R39(d), R203). -/
abbrev State.QuietOk (s : State) : Prop :=
  s.pwmEn = false ∧ s.inte = false ∧ s.unmask = false ∧ s.wrapFlag = false ∧ s.fillBusy = false

/-- The invariant of R39, with what its parts need: a legal configuration, canonical memory, and the facts
of R24, R26, R27, R53 and R123. -/
structure State.Inv (s : State) : Prop where
  config : s.cfg.WellFormed
  rdInRange : s.rd < s.cfg.rbN
  wrInRange : s.wr < s.cfg.rbN
  memWf : Memory.wf s.mem
  slotsInRange : s.SlotsInRange
  liveWritten : s.LiveSlotsWritten
  compareEqual : s.ccA = s.ccB
  divHigh : s.div.toNat ≤ divRawMax s.cfg
  notConfigured : s.eng ≠ .configured
  running : s.eng = .running → s.RunningOk
  quiet : s.eng ≠ .running → s.QuietOk
  halted : s.eng = .faulted → s.fault ≠ .noFault

/-- The buffer's content, oldest first (R62). -/
def State.queue (s : State) : List Byte :=
  (List.range s.count).map fun k => s.slotValue ((s.rd + k) % s.cfg.rbN)

/-- The instructions in order, each run by `exec`. -/
def execAll : List Instr → State → Result
  | [], s => .next s
  | i :: rest, s =>
    match exec i s with
    | .next t => execAll rest t
    | .fault f => .fault f
    | .refused r => .refused r

/-- `n` FILL iterations with no step of another agent between them (R132). -/
def fillIters : Nat → State → Result
  | 0, s => .next s
  | n + 1, s =>
    match fillIter s with
    | .next t => fillIters n t
    | .fault f => .fault f
    | .refused r => .refused r

/-- The agents' turns in order (R7, R60). -/
def runTurns : List Agent → State → Result
  | [], s => .next s
  | a :: rest, s =>
    match agentTurn a s with
    | .next t => runTurns rest t
    | .fault f => .fault f
    | .refused r => .refused r

/-- A value collected along the turns, one piece for each turn that answers a next state. -/
def alongTurns {α : Type} (piece : Agent → State → State → List α) : List Agent → State → List α
  | [], _ => []
  | a :: rest, s =>
    match agentTurn a s with
    | .next t => piece a s t ++ alongTurns piece rest t
    | _ => []

/-- The element a turn pushed, seen as WR moving on (R20). -/
def pushedPiece (_ : Agent) (s t : State) : List Byte := if t.wr = s.wr then [] else [t.slotValue s.wr]

/-- The element a turn delivered, seen as RD moving on (R19): the compare value while RUNNING, else the
low byte of POP's response. -/
def deliveredPiece (_ : Agent) (s t : State) : List Byte :=
  if t.rd = s.rd then []
  else if s.eng = .running then [t.ccA.setWidth 8]
  else (t.responses.getLast?.map fun r => r.data.setWidth 8).toList

/-- The byte a successful FILL iteration pushed (R133). -/
def fillPushedPiece (a : Agent) (s t : State) : List Byte :=
  if a = .host ∧ s.fillBusy = true then pushedPiece a s t else []

/-- The turn is a wrap: a TICK that finds CTR = TOP_REG (R171). -/
def wrapPiece (a : Agent) (s _t : State) : List Unit :=
  if a = .tmr ∧ s.pwmEn = true ∧ s.ctr = s.topReg then [()] else []

/-- The turn is a DISPATCH step (R171). -/
def dispatchPiece (a : Agent) (s _t : State) : List Unit :=
  if a = .disp ∧ s.dispatchEnabled = true then [()] else []

/-- The illegal command words, in the words of spec/30_encoding.md R75 over the number the word is. -/
abbrev IllegalWord (w : Half) : Prop :=
  6 ≤ w.toNat / 4096 ∨ w.toNat / 256 % 16 ≠ 0 ∨
    ((w.toNat / 4096 = 0 ∨ w.toNat / 4096 = 1 ∨ w.toNat / 4096 = 3 ∨ w.toNat / 4096 = 4) ∧ w.toNat % 256 ≠ 0) ∨
    (w.toNat / 4096 = 5 ∧ w.toNat % 256 / 16 ≠ 0) ∨ (w.toNat / 4096 = 5 ∧ 11 ≤ w.toNat % 16)

/-- The host has more words to present (log 5). -/
def State.withMoreWords (s : State) (words : List Half) : State := { s with port := s.port ++ words }

/-- An infinite run: the agents in turn, and the states between. Before each turn the host may come to have more
words to present, whatever it has seen. -/
def IsRun (agents : Nat → Agent) (states : Nat → State) : Prop :=
  ∀ n, ∃ words, agentTurn (agents n) ((states n).withMoreWords words) = .next (states (n + 1))

/-- Weak fairness (R9): an agent whose step stays enabled eventually takes it. Reset is no agent (R7). -/
def WeaklyFair (agents : Nat → Agent) (states : Nat → State) : Prop :=
  ∀ a, a ≠ .resetLogic → ∀ n, (∀ m, n ≤ m → agentEnabled a (states m) = true) → ∃ m, n ≤ m ∧ agents m = a

end Sys2Proof.Machine
end

