-- ==== Sys2Proof/Certificates/Slice0/Obligations.lean ====
section
/-! DEFINITION. The statements for the provers. Each docstring names the rules of spec/ it rests on. -/

open Sys2Proof Sys2Proof.Machine

/-! ### Encoding (spec/30_encoding.md) -/

/-- Every instruction, with every operand, decodes from its own encoding (R71 to R74). -/
def Obligations.DecodeOfEncode : Prop := ∀ i : Instr, decode (encode i) = .ok i

/-- A word that decodes is the encoding of what it decodes to: no two words mean the same (R71 to R74). -/
def Obligations.EncodeOfDecode : Prop := ∀ (e : Encoded) (i : Instr), decode e = .ok i → encode i = e

/-- R81: the decoder over all command words, read off the number the word is; what is illegal faults, and
RDREG of 11 to 15 decodes and then faults. -/
def Obligations.CommandDecoderIsTotal : Prop :=
  (∀ w : Half, (decodeCommand w).toOption =
    if w.toNat / 256 % 16 ≠ 0 then none
    else if w.toNat / 4096 = 0 then (if w.toNat % 256 = 0 then some .nop else none)
    else if w.toNat / 4096 = 1 then (if w.toNat % 256 = 0 then some .init else none)
    else if w.toNat / 4096 = 2 then some (.push (BitVec.ofNat 8 (w.toNat % 256)))
    else if w.toNat / 4096 = 3 then (if w.toNat % 256 = 0 then some .pop else none)
    else if w.toNat / 4096 = 4 then (if w.toNat % 256 = 0 then some .fill else none)
    else if w.toNat / 4096 = 5 then
      (if w.toNat % 256 / 16 = 0 then some (.rdreg (BitVec.ofNat 4 (w.toNat % 16))) else none)
    else none) ∧
  (∀ (w : Half) (s : State), (decodeCommand w).toOption = none →
    runCommand w s = .next { s with
      fault := if s.fault = .noFault then .illegal else s.fault
      responses := s.responses ++ [⟨true, .illegal, 0⟩] }) ∧
  (∀ (r : Nibble) (s : State), 11 ≤ r.toNat →
    exec (.rdreg r) s = .next { s with
      fault := if s.fault = .noFault then .illegal else s.fault
      responses := s.responses ++ [⟨true, .illegal, 0⟩] })

/-- R75: a word is illegal exactly when R75 lists it. It then changes FAULT alone and responds E_ILLEGAL, and it is
RDREG of 11 to 15 if it decodes at all. Any other word is one of the six commands. -/
def Obligations.IllegalWordsOnlyFault : Prop :=
  ∀ w : Half,
    (IllegalWord w → ∀ s : State,
      runCommand w s = .next { s with
        fault := if s.fault = .noFault then .illegal else s.fault
        responses := s.responses ++ [⟨true, .illegal, 0⟩] }) ∧
    (∀ i : Instr, IllegalWord w → decodeCommand w = .ok i → ∃ r : Nibble, i = .rdreg r ∧ 11 ≤ r.toNat) ∧
    (¬ IllegalWord w → ∃ i : Instr, decodeCommand w = .ok i ∧ i.isCommand = true ∧ i.Assembles = true)

/-- The words of spec/95_test_vectors.md, Decode, and one identifier of each internal step (R72, R74). -/
def Obligations.SampleWordsDecode : Prop :=
  decodeCommand 0x0000 = .ok .nop ∧ decodeCommand 0x1000 = .ok .init ∧ decodeCommand 0x20FF = .ok (.push 255) ∧
    decodeCommand 0x3000 = .ok .pop ∧ decodeCommand 0x4000 = .ok .fill ∧ decodeCommand 0x500A = .ok (.rdreg 10) ∧
    decodeCommand 0x500B = .ok (.rdreg 11) ∧ decodeCommand 0x0001 = .error (.operandBits 1) ∧
    decodeCommand 0x2F00 = .error (.reservedBits 15) ∧ decodeCommand 0x6000 = .error (.reservedOpcode 6) ∧
    decodeStepId 1 = .ok .reset ∧ decodeStepId 2 = .ok .tick ∧ decodeStepId 3 = .ok .dispatch

/-- The assembler never emits an illegal word (R79, R80). -/
def Obligations.AssemblerEmitsLegalWords : Prop :=
  ∀ (line : AsmLine) (ws : List Half), assemble line = some ws → ∀ w ∈ ws, ¬ IllegalWord w

/-! ### The step (spec/00_scope.md R7, spec/42_system.md R152, spec/60_exceptions.md R208) -/

/-- A step in which HOST moves, is not blocked and has no FILL in progress presents the next word of the port, whatever
word it is: it runs the instruction the word decodes to, and a word that decodes to none raises E_ILLEGAL (R17,
R152, R202). What the step adds is that the schedule and the port have moved on. -/
def Obligations.StepRunsDecodedCommand : Prop :=
  ∀ (s : State) (agents : List Agent) (w : Half) (words : List Half),
    s.sched = .host :: agents → s.hostBlocked = false → s.fillBusy = false → s.port = w :: words →
      step s = runCommand w { s with sched := agents, port := words } ∧
      (∀ i : Instr, decodeCommand w = .ok i → step s = exec i { s with sched := agents, port := words }) ∧
      ((decodeCommand w).toOption = none → step s = .next { s with
        sched := agents
        port := words
        fault := if s.fault = .noFault then .illegal else s.fault
        responses := s.responses ++ [⟨true, .illegal, 0⟩] })

/-- A step in which another agent moves runs that agent's instruction (R72, R74). -/
def Obligations.StepRunsInternalSteps : Prop :=
  ∀ (s : State) (agents : List Agent),
    (s.sched = .tmr :: agents → step s = exec .tick { s with sched := agents }) ∧
    (s.sched = .disp :: agents → step s = exec .dispatch { s with sched := agents }) ∧
    (s.sched = .resetLogic :: agents → step s = exec .reset { s with sched := agents })

/-- While FILL_BUSY = 1 HOST's step is the next FILL iteration, and the port keeps its words (R131, R152). -/
def Obligations.StepIteratesFillWhileBusy : Prop :=
  ∀ (s : State) (agents : List Agent),
    s.sched = .host :: agents → s.hostBlocked = false → s.fillBusy = true →
      step s = fillIter { s with sched := agents } ∧
        ∀ t, step s = .next t → t.port = s.port

/-- A HOST turn without a step leaves all but the schedule, which is the model's choice (log 7). HOST has none
while ISR_STRICT holds with ENG = RUNNING and IRQ = 1 (R208), and none without a word and a FILL (R58). -/
def Obligations.HostWithoutStepWaits : Prop :=
  ∀ (s : State) (agents : List Agent), s.sched = .host :: agents →
    (s.cfg.isrStrict = true → s.eng = .running → s.wrapFlag = true → s.inte = true → s.unmask = true →
      step s = .next { s with sched := agents }) ∧
    (s.fillBusy = false → s.port = [] → step s = .next { s with sched := agents })

/-- Past the end of the schedule the agent is a free one (R208). The model's choice (log 4). -/
def Obligations.StepDrawsFreeAgent : Prop :=
  ∀ s : State, s.sched = [] →
    step s = agentTurn (Config.freeAgent s.draws) { s with draws := s.draws + 1 }

/-! ### PUSH and POP (spec/40_ring_buffer.md) -/

/-- PUSH with room: the slot at WR takes the element, WR moves on, the response is 1, and nothing else
changes (R100). -/
def Obligations.PushStoresElement : Prop :=
  ∀ (v : Byte) (s : State),
    s.eng ≠ .faulted → (s.wr + 1) % s.cfg.rbN ≠ s.rd → s.wr < s.cfg.rbN →
      ∃ t, exec (.push v) s = .next t ∧
        Memory.read t.mem s.wr = some v ∧ (∀ i, i ≠ s.wr → Memory.read t.mem i = Memory.read s.mem i) ∧
        t = { s with
          mem := t.mem
          wr := (s.wr + 1) % s.cfg.rbN
          responses := s.responses ++ [⟨false, .noFault, 1⟩] }

/-- PUSH into a full buffer responds 0 and changes nothing (R100). -/
def Obligations.PushIntoFullChangesNothing : Prop :=
  ∀ (v : Byte) (s : State), s.eng ≠ .faulted → (s.wr + 1) % s.cfg.rbN = s.rd →
    exec (.push v) s = .next { s with responses := s.responses ++ [⟨false, .noFault, 0⟩] }

/-- The flags after a successful PUSH (R100). -/
def Obligations.PushMovesFlags : Prop :=
  ∀ (v : Byte) (s : State),
    2 ≤ s.cfg.rbN → s.rd < s.cfg.rbN → s.wr < s.cfg.rbN → s.eng ≠ .faulted → s.full = false →
      ∃ t, exec (.push v) s = .next t ∧ t.empty = false ∧ t.count = s.count + 1 ∧
        (t.full = true ↔ t.count = s.cfg.rbN - 1)

/-- POP of an element: the response carries the slot at RD, RD moves on, and nothing else changes (R101). -/
def Obligations.PopReturnsOldest : Prop :=
  ∀ s : State, s.eng ≠ .faulted → s.eng ≠ .running → s.rd ≠ s.wr → s.rd < s.cfg.rbN →
    exec .pop s = .next { s with
      rd := (s.rd + 1) % s.cfg.rbN
      responses := s.responses ++ [⟨false, .noFault, (s.slotValue s.rd).setWidth 32⟩] }

/-- Any number of POPs of an empty buffer: each responds 0x100, and nothing else changes (R57, R102(d)). -/
def Obligations.UnderrunIsIdempotent : Prop :=
  ∀ (n : Nat) (s : State), s.eng ≠ .faulted → s.eng ≠ .running → s.rd = s.wr →
    execAll (List.replicate n .pop) s =
      .next { s with responses := s.responses ++ List.replicate n ⟨false, .noFault, 0x100⟩ }

/-- The flags after a POP or a DISPATCH that delivers an element (R101, R172). -/
def Obligations.DeliveryMovesFlags : Prop :=
  ∀ (i : Instr) (s : State), 2 ≤ s.cfg.rbN → s.rd < s.cfg.rbN → s.wr < s.cfg.rbN → s.empty = false →
    ((i = .pop ∧ s.eng ≠ .faulted ∧ s.eng ≠ .running) ∨ (i = .dispatch ∧ s.dispatchEnabled = true)) →
      ∃ t, exec i s = .next t ∧ t.full = false ∧ t.count + 1 = s.count ∧ (t.empty = true ↔ t.count = 0)

/-- EMPTY and FULL exclude each other and are the ends of COUNT, which is at most RB_N - 1 (R22). -/
def Obligations.FlagsFollowCount : Prop :=
  ∀ s : State, 2 ≤ s.cfg.rbN → s.rd < s.cfg.rbN → s.wr < s.cfg.rbN →
    ¬ (s.empty = true ∧ s.full = true) ∧ s.count ≤ s.cfg.rbN - 1 ∧
      (s.empty = true ↔ s.count = 0) ∧ (s.full = true ↔ s.count = s.cfg.rbN - 1)

/-- An access outside RBMEM or SRCROM, which no reachable state makes, stops by name. The model's choice
(log 9): such an index does not exist (R50). -/
def Obligations.AccessOutsideStorageStops : Prop :=
  (∀ (v : Byte) (s : State), s.eng ≠ .faulted → s.full = false → s.cfg.rbN ≤ s.wr →
    exec (.push v) s = .fault (.slotOutside s.wr)) ∧
  (∀ s : State, s.eng ≠ .faulted → s.eng ≠ .running → s.empty = false → s.cfg.rbN ≤ s.rd →
    exec .pop s = .fault (.slotOutside s.rd)) ∧
  (∀ s : State, s.dispatchEnabled = true → s.empty = false → s.cfg.rbN ≤ s.rd →
    exec .dispatch s = .fault (.slotOutside s.rd)) ∧
  (∀ s : State, s.cfg.srcLen ≤ s.srcOff.toNat / 2 →
    fillIter s = .fault (.sourceOutside (s.srcOff.toNat / 2)))

/-- From an empty buffer, RB_N - 1 pushes succeed and the next one is refused (R102(a)). -/
def Obligations.UsableCapacity : Prop :=
  ∀ (vs : List Byte) (v : Byte) (s : State), s.Inv → s.eng ≠ .faulted → s.rd = s.wr →
    vs.length = s.cfg.rbN - 1 →
      ∃ t, execAll (vs.map .push ++ [.push v]) s = .next t ∧
        t.responses = s.responses ++ List.replicate (s.cfg.rbN - 1) ⟨false, .noFault, 1⟩ ++
          [⟨false, .noFault, 0⟩]

/-- From an empty buffer, k pushes and then k pops return the pushed values in order, and the next pop
underruns (R102(b)). -/
def Obligations.RoundTrip : Prop :=
  ∀ (vs : List Byte) (s : State), s.Inv → s.eng = .uninit → s.rd = s.wr → vs.length ≤ s.cfg.rbN - 1 →
    ∃ t, execAll (vs.map .push ++ List.replicate vs.length .pop ++ [.pop]) s = .next t ∧
      t.responses = s.responses ++ List.replicate vs.length ⟨false, .noFault, 1⟩ ++
        vs.map (fun v => ⟨false, .noFault, v.setWidth 32⟩) ++ [⟨false, .noFault, 0x100⟩]

/-- FIFO over every interleaving (R62): along any turns without RESET and without a successful INIT, what was
delivered and what is left are together what was there and what was pushed, in order. -/
def Obligations.DeliveredInOrderPushed : Prop :=
  ∀ (agents : List Agent) (s t : State), s.Inv → .resetLogic ∉ agents → runTurns agents s = .next t →
    ¬ (s.eng = .uninit ∧ t.eng = .running) →
      alongTurns deliveredPiece agents s ++ t.queue = s.queue ++ alongTurns pushedPiece agents s

/-- An element that POP or DISPATCH reads has been written (R53). -/
def Obligations.ReadSlotsWereWritten : Prop :=
  ∀ s : State, s.Inv → s.empty = false → ∃ b, Memory.read s.mem s.rd = some b ∧ s.slotValue s.rd = b

/-! ### INIT and FILL (spec/41_engine.md) -/

/-- A successful INIT: every register R123 lists, every slot 0, the response 0, and nothing else changed
(R120 to R123). -/
def Obligations.InitProgramsTheBlock : Prop :=
  ∀ s : State, s.eng = .uninit → s.cfg.srcLen ≠ 0 → s.cfg.clkHz ≠ 0 → s.cfg.targetRate ≠ 0 →
    s.cfg.pwmTop ≠ 0 →
    2 ^ s.cfg.fracBits ≤ 2 ^ s.cfg.fracBits * s.cfg.clkHz / (s.cfg.pwmTop.toNat * s.cfg.targetRate) →
    2 ^ s.cfg.fracBits * s.cfg.clkHz / (s.cfg.pwmTop.toNat * s.cfg.targetRate)
      ≤ 2 ^ (s.cfg.divIntBits + s.cfg.fracBits) - 1 →
      ∃ t, exec .init s = .next t ∧
        (∀ i, i < s.cfg.rbN → Memory.read t.mem i = some 0) ∧
        (∀ i, s.cfg.rbN ≤ i → Memory.read t.mem i = none) ∧
        t.ccA.toNat = s.cfg.pwmTop.toNat / 2 ∧ t.ccB.toNat = s.cfg.pwmTop.toNat / 2 ∧
        t = { s with
          topReg := s.cfg.pwmTop
          div := BitVec.ofNat 32
            (2 ^ s.cfg.fracBits * s.cfg.clkHz / (s.cfg.pwmTop.toNat * s.cfg.targetRate))
          invA := false
          invB := true
          ccA := t.ccA
          ccB := t.ccB
          ctr := 0
          pwmEn := true
          mem := t.mem
          rd := 0
          wr := 0
          wrapFlag := false
          inte := true
          unmask := true
          eng := .running
          srcOff := 0
          responses := s.responses ++ [⟨false, .noFault, 0⟩]
          compares := s.compares ++ [(t.ccA, t.ccB)] }

/-- The flags after a successful INIT (R120). -/
def Obligations.InitClearsFlags : Prop :=
  ∀ s t : State, 2 ≤ s.cfg.rbN → s.eng = .uninit → exec .init s = .next t → t.eng = .running →
    t.empty = true ∧ t.full = false ∧ t.count = 0 ∧ t.wrapFlag = false ∧ t.irq = false

/-- A misconfigured INIT: ENG becomes FAULTED, the fault is raised, and nothing else changes (R120, R122). -/
def Obligations.MisconfiguredInitHalts : Prop :=
  ∀ s : State, s.eng = .uninit →
    (s.cfg.srcLen = 0 ∨ s.cfg.clkHz = 0 ∨ s.cfg.targetRate = 0 ∨ s.cfg.pwmTop = 0 ∨
      2 ^ s.cfg.fracBits * s.cfg.clkHz / (s.cfg.pwmTop.toNat * s.cfg.targetRate) < 2 ^ s.cfg.fracBits ∨
      2 ^ (s.cfg.divIntBits + s.cfg.fracBits) - 1
        < 2 ^ s.cfg.fracBits * s.cfg.clkHz / (s.cfg.pwmTop.toNat * s.cfg.targetRate)) →
      exec .init s = .next { s with
        eng := .faulted
        fault := if s.fault = .noFault then .misconfig else s.fault
        responses := s.responses ++ [⟨true, .misconfig, 0⟩] }

/-- The worked dividers of spec/95_test_vectors.md (L1-2, INIT-1 to INIT-8; R121, R122): the divider and the
misconfiguration test at each. -/
def Obligations.WorkedDividers : Prop :=
  (divRaw Config.default = 348852 ∧ misconfig Config.default = false) ∧
  (let c : Config := { Config.default with clkHz := 48, pwmTop := 3, targetRate := 1 }
   divRaw c = 1048576 ∧ misconfig c = false) ∧
  (let c : Config := { Config.default with clkHz := 1000 }
   divRaw c = 2 ∧ misconfig c = true) ∧
  (let c : Config := { Config.default with pwmTop := 1, targetRate := 1 }
   divRaw c = 8716288000000 ∧ misconfig c = true) ∧
  (let c : Config := { Config.default with clkHz := 24985600 }
   divRaw c = 65536 ∧ misconfig c = false) ∧
  (let c : Config := { Config.default with clkHz := 24985599 }
   divRaw c = 65535 ∧ misconfig c = true) ∧
  (let c : Config := { Config.default with clkHz := 255, pwmTop := 1, targetRate := 1 }
   divRaw c = 16711680 ∧ misconfig c = false) ∧
  (let c : Config := { Config.default with clkHz := 256, pwmTop := 1, targetRate := 1 }
   divRaw c = 16777216 ∧ misconfig c = true)

/-- FILL while RUNNING is accepted: FILL_BUSY is set, FILL_CNT is 0, no response yet (R130). -/
def Obligations.FillIsAccepted : Prop :=
  ∀ s : State, s.eng = .running → exec .fill s = .next { s with fillBusy := true, fillCnt := 0 }

/-- A FILL iteration with room pushes the source byte at half the offset, and SRCOFF and FILL_CNT move on
(R131). -/
def Obligations.FillIterationPushesSource : Prop :=
  ∀ (s : State) (b : Byte), s.cfg.src[s.srcOff.toNat / 2]? = some b → s.full = false → s.wr < s.cfg.rbN →
    ∃ t, fillIter s = .next t ∧
      Memory.read t.mem s.wr = some b ∧ (∀ i, i ≠ s.wr → Memory.read t.mem i = Memory.read s.mem i) ∧
      t = { s with
        mem := t.mem
        wr := (s.wr + 1) % s.cfg.rbN
        srcOff := BitVec.ofNat 32 ((s.srcOff.toNat + 1) % (2 * s.cfg.srcLen))
        fillCnt := s.fillCnt + 1 }

/-- A FILL iteration that finds the buffer full completes the command with the count (R131). -/
def Obligations.FillIterationCompletes : Prop :=
  ∀ s : State, s.srcOff.toNat / 2 < s.cfg.srcLen → s.full = true →
    fillIter s = .next { s with
      fillBusy := false
      responses := s.responses ++ [⟨false, .noFault, s.fillCnt⟩] }

/-- With m free slots and no other step between, a FILL takes m + 1 iterations, responds m, leaves the buffer
full and moves SRCOFF by m (R132(a)). -/
def Obligations.FillFillsToCapacity : Prop :=
  ∀ (s : State) (m : Nat), s.Inv → s.eng = .running → m + s.count = s.cfg.rbN - 1 →
    ∃ s₀ t, exec .fill s = .next s₀ ∧ fillIters (m + 1) s₀ = .next t ∧
      (∀ n, n ≤ m → ∃ u, fillIters n s₀ = .next u ∧ u.fillBusy = true) ∧
      t.fillBusy = false ∧ t.full = true ∧
      t.responses = s.responses ++ [⟨false, .noFault, BitVec.ofNat 32 m⟩] ∧
      t.srcOff.toNat = (s.srcOff.toNat + m) % srcMod s.cfg

/-- A DISPATCH that delivers lets the next FILL iteration push: the FILL does not complete there (R132(f)). -/
def Obligations.FillGoesOnAfterDispatch : Prop :=
  ∀ s : State, s.Inv → s.fillBusy = true → s.dispatchEnabled = true → s.empty = false →
    ∃ t u, exec .dispatch s = .next t ∧ fillIter t = .next u ∧ u.fillBusy = true ∧ u.count = s.count ∧
      u.fillCnt = s.fillCnt + 1

/-- The n-th fill push after INIT, whatever is interleaved short of RESET, pushes SRC[(n mod SRC_MOD) / 2]
(R133). -/
def Obligations.SourceBytesInOrder : Prop :=
  ∀ (agents : List Agent) (s : State), s.Inv → s.eng = .running → s.srcOff = 0 → .resetLogic ∉ agents →
    ∀ n, n < (alongTurns fillPushedPiece agents s).length →
      (alongTurns fillPushedPiece agents s)[n]? = s.cfg.src[n % srcMod s.cfg / 2]?

/-- A FILL completes on a weakly fair run in which no DISPATCH and no RESET comes while it is in progress,
with free scheduling (R9, R251). -/
def Obligations.FairFillCompletes : Prop :=
  ∀ (agents : Nat → Agent) (states : Nat → State),
    IsRun agents states → WeaklyFair agents states → (states 0).Inv → (states 0).cfg.isrStrict = false →
      (states 0).fillBusy = true →
      (∀ n, (∀ k, k ≤ n → (states k).fillBusy = true) → agents n ≠ .disp ∧ agents n ≠ .resetLogic) →
        ∃ n, (states n).fillBusy = false

/-! ### NOP, RDREG, RESET (spec/42_system.md, spec/70_reset_and_hazards.md) -/

/-- NOP responds 0 and changes nothing, in every ENG (R150). -/
def Obligations.NopOnlyResponds : Prop :=
  ∀ s : State, exec .nop s = .next { s with responses := s.responses ++ [⟨false, .noFault, 0⟩] }

/-- RDREG responds with the register R34 names, faults on a reserved index, and has no side effect
(R34, R151). -/
def Obligations.RdregReadsView : Prop :=
  (∀ (r : Nibble) (s : State), r.toNat ≤ 10 →
    exec (.rdreg r) s = .next { s with responses := s.responses ++ [⟨false, .noFault,
      if r = 0 then s.status else if r = 1 then BitVec.ofNat 32 s.rd
      else if r = 2 then BitVec.ofNat 32 s.wr else if r = 3 then s.srcOff
      else if r = 4 then s.topReg.setWidth 32 else if r = 5 then s.div
      else if r = 6 then s.ccA.setWidth 32 else if r = 7 then s.ccB.setWidth 32
      else if r = 8 then s.ctrl else if r = 9 then BitVec.ofNat 32 s.cfg.rbN
      else s.ctr.setWidth 32⟩] }) ∧
  (∀ (r : Nibble) (s : State), 11 ≤ r.toNat →
    exec (.rdreg r) s = .next { s with
      fault := if s.fault = .noFault then .illegal else s.fault
      responses := s.responses ++ [⟨true, .illegal, 0⟩] })

/-- R35: the fields of the STATUS word. -/
def Obligations.StatusWordFields : Prop :=
  ∀ s : State, s.rd < s.cfg.rbN → s.cfg.rbN ≤ 65536 →
    s.status.getLsbD 0 = decide (s.rd = s.wr) ∧
    s.status.getLsbD 1 = decide ((s.wr + 1) % s.cfg.rbN = s.rd) ∧
    s.status.extractLsb' 2 2 = s.eng.bits ∧
    s.status.getLsbD 4 = s.wrapFlag ∧
    s.status.getLsbD 5 = (s.wrapFlag && s.inte && s.unmask) ∧
    s.status.extractLsb' 6 2 = 0 ∧
    s.status.extractLsb' 8 3 = s.fault.bits ∧
    s.status.extractLsb' 11 5 = 0 ∧
    ((s.status.extractLsb' 16 16).toNat : Int) = ((s.wr : Int) - s.rd) % s.cfg.rbN

/-- The numbers of the engine states and of the fault codes; no fault has the reserved code 7 (R24, R200). -/
def Obligations.CodesAreAsListed : Prop :=
  (Eng.uninit.bits = 0 ∧ Eng.configured.bits = 1 ∧ Eng.running.bits = 2 ∧ Eng.faulted.bits = 3) ∧
    (FaultCode.noFault.bits = 0 ∧ FaultCode.misconfig.bits = 1 ∧ FaultCode.uninit.bits = 2 ∧
      FaultCode.reinit.bits = 3 ∧ FaultCode.illegal.bits = 4 ∧ FaultCode.spsc.bits = 5 ∧
      FaultCode.halted.bits = 6) ∧
    ∀ c : FaultCode, c.bits ≠ 7

/-- R36: the fields of the CTRL word. -/
def Obligations.CtrlWordFields : Prop :=
  ∀ s : State,
    s.ctrl.getLsbD 0 = s.pwmEn ∧ s.ctrl.getLsbD 1 = s.invA ∧ s.ctrl.getLsbD 2 = s.invB ∧
      s.ctrl.getLsbD 3 = s.inte ∧ s.ctrl.getLsbD 4 = s.unmask ∧ s.ctrl.extractLsb' 5 27 = 0

/-- R240: RESET at any time. Every piece of the block's state that has a reset value takes it (RBMEM is unspecified),
a FILL in progress ends without a response, and TMR and DISP have no step after it. -/
def Obligations.ResetClearsTheBlock : Prop :=
  encode .reset = .stepId 0x1 ∧
  ∀ s : State, ∃ t, exec .reset s = .next t ∧
    t.rd = 0 ∧ t.wr = 0 ∧ t.srcOff = 0 ∧ t.eng = .uninit ∧ t.topReg = 0 ∧ t.div = 0 ∧ t.ccA = 0 ∧ t.ccB = 0 ∧
    t.invA = false ∧ t.invB = false ∧ t.pwmEn = false ∧ t.inte = false ∧ t.unmask = false ∧ t.ctr = 0 ∧
    t.wrapFlag = false ∧ t.fault = .noFault ∧ t.fillBusy = false ∧ t.fillCnt = 0 ∧
    t.empty = true ∧ (2 ≤ s.cfg.rbN → t.full = false) ∧ t.count = 0 ∧ t.irq = false ∧ t.responses = s.responses ∧
    agentEnabled .tmr t = false ∧ agentEnabled .disp t = false

/-- What RESET leaves of the host's side, and that every slot is unlisted and holds a fresh free value. The
model's choice (logs 2 and 21). -/
def Obligations.ResetKeepsHostSide : Prop :=
  ∀ s : State, ∃ t, exec .reset s = .next t ∧ t.cfg = s.cfg ∧ t.port = s.port ∧ t.sched = s.sched ∧
    t.draws = s.draws ∧ t.responses = s.responses ∧ t.compares = s.compares ∧
    ∀ i, Memory.read t.mem i = none ∧ t.slotValue i = Config.unspecifiedSlot (s.resets + 1) i

/-- R38: the reset values. RBMEM is unspecified, so nothing is stated of it. -/
def Obligations.ResetValues : Prop :=
  State.reset.rd = 0 ∧ State.reset.wr = 0 ∧ State.reset.srcOff = 0 ∧ State.reset.eng.bits = 0 ∧
    State.reset.topReg = 0 ∧ State.reset.div = 0 ∧ State.reset.ccA = 0 ∧ State.reset.ccB = 0 ∧
    State.reset.invA = false ∧ State.reset.invB = false ∧ State.reset.pwmEn = false ∧
    State.reset.inte = false ∧ State.reset.unmask = false ∧ State.reset.ctr = 0 ∧
    State.reset.wrapFlag = false ∧ State.reset.fault.bits = 0 ∧ State.reset.fillBusy = false ∧
    State.reset.fillCnt = 0 ∧ State.reset.empty = true ∧ State.reset.full = false ∧
    State.reset.count = 0 ∧ State.reset.irq = false

/-! ### TICK and DISPATCH (spec/43_pwm_dispatch.md) -/

/-- TICK while PWM_EN = 1 counts to TOP_REG and then wraps and sets WRAP_FLAG; nothing else changes (R170). -/
def Obligations.TickCountsAndWraps : Prop :=
  ∀ s : State, s.pwmEn = true →
    exec .tick s = .next
      (if s.ctr = s.topReg then { s with ctr := 0, wrapFlag := true } else { s with ctr := s.ctr + 1 })

/-- DISPATCH of an element: both compare values take it, RD moves on, WRAP_FLAG is cleared, and nothing else
changes (R172, R173). -/
def Obligations.DispatchDeliversSample : Prop :=
  ∀ s : State, s.eng = .running → s.wrapFlag = true → s.inte = true → s.unmask = true →
    s.rd ≠ s.wr → s.rd < s.cfg.rbN →
      exec .dispatch s = .next { s with
        rd := (s.rd + 1) % s.cfg.rbN
        ccA := (s.slotValue s.rd).setWidth 16
        ccB := (s.slotValue s.rd).setWidth 16
        wrapFlag := false
        compares := s.compares ++ [((s.slotValue s.rd).setWidth 16, (s.slotValue s.rd).setWidth 16)] }

/-- R174: DISPATCH of an empty buffer writes 0, the default element, to both compare values. -/
def Obligations.DispatchUnderrunWritesZero : Prop :=
  ∀ s : State, s.eng = .running → s.wrapFlag = true → s.inte = true → s.unmask = true → s.rd = s.wr →
    exec .dispatch s = .next { s with
      ccA := 0
      ccB := 0
      wrapFlag := false
      compares := s.compares ++ [(0, 0)] }

/-- A TICK with PWM_EN = 0 and a DISPATCH without ENG = RUNNING and IRQ = 1 are no steps (R170, R172). That
the state is then left as it is, is the model's choice (log 7). -/
def Obligations.DisabledStepsWait : Prop :=
  ∀ s : State, (s.pwmEn = false → exec .tick s = .next s) ∧
    (s.eng ≠ .running ∨ s.wrapFlag = false ∨ s.inte = false ∨ s.unmask = false → exec .dispatch s = .next s)

/-- Along any turns that start with WRAP_FLAG = 0, there are at most as many DISPATCHes as wraps (R171(a)). -/
def Obligations.DispatchesAtMostWraps : Prop :=
  ∀ (agents : List Agent) (s : State), s.wrapFlag = false →
    (alongTurns dispatchPiece agents s).length ≤ (alongTurns wrapPiece agents s).length

/-- On a weakly fair run from RUNNING without RESET, the counter ticks again and again (R9, R217). -/
def Obligations.FairCounterKeepsTicking : Prop :=
  ∀ (agents : Nat → Agent) (states : Nat → State),
    IsRun agents states → WeaklyFair agents states → (states 0).Inv → (states 0).eng = .running →
      (∀ n, agents n ≠ .resetLogic) → ∀ n, ∃ m, n ≤ m ∧ agents m = .tmr ∧ (states m).pwmEn = true

/-! ### Faults (spec/60_exceptions.md) -/

/-- The command-specific state tests of R204, item 3: POP while RUNNING (E_SPSC), INIT outside UNINIT
(E_REINIT), FILL outside RUNNING (E_UNINIT); each changes only FAULT (R101, R120, R130, R201). -/
def Obligations.StateTestsFault : Prop :=
  (∀ s : State, s.eng = .running →
    exec .pop s = .next { s with
      fault := if s.fault = .noFault then .spsc else s.fault
      responses := s.responses ++ [⟨true, .spsc, 0⟩] }) ∧
  (∀ s : State, s.eng ≠ .faulted → s.eng ≠ .uninit →
    exec .init s = .next { s with
      fault := if s.fault = .noFault then .reinit else s.fault
      responses := s.responses ++ [⟨true, .reinit, 0⟩] }) ∧
  (∀ s : State, s.eng ≠ .faulted → s.eng ≠ .running →
    exec .fill s = .next { s with
      fault := if s.fault = .noFault then .uninit else s.fault
      responses := s.responses ++ [⟨true, .uninit, 0⟩] })

/-- R203: the halted state. That PWM_EN = 0 there is part of the invariant. -/
def Obligations.HaltedEngine : Prop :=
  ∀ s : State, s.eng = .faulted →
    (∀ i : Instr, (i = .init ∨ (∃ v, i = .push v) ∨ i = .pop ∨ i = .fill) →
      exec i s = .next { s with
        fault := if s.fault = .noFault then .halted else s.fault
        responses := s.responses ++ [⟨true, .halted, 0⟩] }) ∧
    exec .nop s = .next { s with responses := s.responses ++ [⟨false, .noFault, 0⟩] } ∧
    (∀ r : Nibble, r.toNat ≤ 10 → ∃ d, s.view r = some d ∧
      exec (.rdreg r) s = .next { s with responses := s.responses ++ [⟨false, .noFault, d⟩] }) ∧
    (∀ r : Nibble, 11 ≤ r.toNat → exec (.rdreg r) s = .next { s with
      fault := if s.fault = .noFault then .illegal else s.fault
      responses := s.responses ++ [⟨true, .illegal, 0⟩] }) ∧
    (s.Inv → s.pwmEn = false ∧ agentEnabled .tmr s = false) ∧ agentEnabled .disp s = false ∧
    (∀ (a : Agent) (t : State), agentTurn a s = .next t → t.eng ≠ .faulted → a = .resetLogic)

/-- R32: FAULT is 0 after reset, takes the code of the first step that faults, and keeps it until RESET. -/
def Obligations.FirstFaultIsKept : Prop :=
  State.reset.fault.bits = 0 ∧
  (∀ (s t : State), agentTurn .resetLogic s = .next t → t.fault = .noFault) ∧
  ∀ (a : Agent) (s t : State), a ≠ .resetLogic → agentTurn a s = .next t →
    (t.fault = s.fault ∧ (t.responses = s.responses ∨ ∃ d, t.responses = s.responses ++ [⟨false, .noFault, d⟩])) ∨
      ∃ c, c ≠ .noFault ∧ t.responses = s.responses ++ [⟨true, c, 0⟩] ∧
        t.fault = if s.fault = .noFault then c else s.fault

/-- Every command word gets exactly one response, a FILL that is accepted gets it later, and the internal
steps get none (R76, R77, R130). A FILL iteration gives none while the FILL goes on, and the one that ends the FILL
gives exactly one, with the count (R131). -/
def Obligations.EachCommandRespondsOnce : Prop :=
  (∀ (w : Half) (s t : State), runCommand w s = .next t →
    (decodeCommand w = .ok .fill ∧ s.eng = .running ∧ t.fillBusy = true ∧ t.responses = s.responses) ∨
      (¬ (decodeCommand w = .ok .fill ∧ s.eng = .running) ∧ ∃ r, t.responses = s.responses ++ [r])) ∧
  (∀ s t : State, fillIter s = .next t →
    (s.full = false ∧ t.fillBusy = s.fillBusy ∧ t.responses = s.responses) ∨
      (s.full = true ∧ t.fillBusy = false ∧ t.responses = s.responses ++ [⟨false, .noFault, s.fillCnt⟩])) ∧
  ∀ (i : Instr) (s t : State), i = .reset ∨ i = .tick ∨ i = .dispatch → exec i s = .next t →
    t.responses = s.responses

/-! ### The whole machine (spec/10_state.md R37, R39) -/

/-- R37: who writes what: the instructions other than RESET, the FILL iteration, an illegal word, and RESET, which
writes all of the block's state. -/
def Obligations.OnlyTheirWritersWrite : Prop :=
  (∀ (i : Instr) (s t : State), i ≠ .reset → exec i s = .next t →
    (t.mem ≠ s.mem → (i = .init ∧ s.eng = .uninit ∧ t.eng = .running ∧ t.mem = Memory.zeros s.cfg.rbN) ∨
      ((∃ v, i = .push v) ∧ s.eng ≠ .faulted ∧ s.full = false)) ∧
    (t.rd ≠ s.rd → (i = .init ∧ s.eng = .uninit ∧ t.eng = .running) ∨
      (i = .pop ∧ s.empty = false ∧ s.eng ≠ .faulted ∧ s.eng ≠ .running) ∨ (i = .dispatch ∧ s.empty = false)) ∧
    (t.wr ≠ s.wr → (i = .init ∧ s.eng = .uninit ∧ t.eng = .running) ∨
      ((∃ v, i = .push v) ∧ s.eng ≠ .faulted ∧ s.full = false)) ∧
    (t.srcOff ≠ s.srcOff → i = .init ∧ s.eng = .uninit ∧ t.eng = .running) ∧
    (t.eng ≠ s.eng → i = .init) ∧
    (t.topReg ≠ s.topReg ∨ t.div ≠ s.div ∨ t.invA ≠ s.invA ∨ t.invB ≠ s.invB ∨ t.pwmEn ≠ s.pwmEn ∨
      t.inte ≠ s.inte ∨ t.unmask ≠ s.unmask → i = .init ∧ s.eng = .uninit ∧ t.eng = .running) ∧
    (t.ccA ≠ s.ccA ∨ t.ccB ≠ s.ccB →
      (i = .init ∧ s.eng = .uninit ∧ t.eng = .running) ∨ i = .dispatch) ∧
    (t.ctr ≠ s.ctr → (i = .init ∧ s.eng = .uninit ∧ t.eng = .running) ∨ i = .tick) ∧
    (t.wrapFlag ≠ s.wrapFlag → (i = .init ∧ s.eng = .uninit ∧ t.eng = .running ∧ t.wrapFlag = false) ∨
      (i = .tick ∧ s.ctr = s.topReg ∧ t.wrapFlag = true) ∨ (i = .dispatch ∧ t.wrapFlag = false)) ∧
    (t.fault ≠ s.fault → s.fault = .noFault ∧ t.responses = s.responses ++ [⟨true, t.fault, 0⟩]) ∧
    (t.fillBusy ≠ s.fillBusy ∨ t.fillCnt ≠ s.fillCnt → i = .fill ∧ s.eng = .running)) ∧
  (∀ s t : State, fillIter s = .next t →
    t = { s with
      mem := t.mem
      wr := t.wr
      srcOff := t.srcOff
      fillBusy := t.fillBusy
      fillCnt := t.fillCnt
      responses := t.responses } ∧
    (s.full = true → t.mem = s.mem ∧ t.wr = s.wr ∧ t.srcOff = s.srcOff)) ∧
  (∀ (w : Half) (s t : State), (decodeCommand w).toOption = none → runCommand w s = .next t →
    t = { s with fault := t.fault, responses := t.responses } ∧ (t.fault ≠ s.fault → s.fault = .noFault)) ∧
  (∀ s : State, ∃ t, exec .reset s = .next t ∧
    t = { State.reset with
      cfg := t.cfg
      port := t.port
      sched := t.sched
      draws := t.draws
      resets := t.resets
      responses := t.responses
      compares := t.compares })

/-- ENG moves only inside INIT, from UNINIT to RUNNING or to FAULTED, and back only by RESET; CONFIGURED is
never left standing (R24, R124). -/
def Obligations.EngineTransitions : Prop :=
  (∀ (i : Instr) (s t : State), exec i s = .next t → t.eng ≠ s.eng →
    (i = .init ∧ s.eng = .uninit ∧ (t.eng = .running ∨ t.eng = .faulted)) ∨ (i = .reset ∧ t.eng = .uninit)) ∧
  ∀ s t : State, fillIter s = .next t → t.eng = s.eng

/-- No step changes the configuration (R5). -/
def Obligations.ConfigurationIsFixed : Prop := ∀ s t : State, step s = .next t → t.cfg = s.cfg

/-- Every step keeps the canonical form of memory, the written slots in rising order, in every state. The form is
the model's choice (log 3). -/
def Obligations.StepKeepsMemoryCanonical : Prop :=
  ∀ s t : State, Memory.wf s.mem → step s = .next t → Memory.wf t.mem

/-- The invariant holds right after reset, for every configuration within R5's ranges (R38, R241), and so for the
one that `State.reset` holds, which is the model's choice (log 1). -/
def Obligations.InvAtReset : Prop :=
  State.reset.Inv ∧ ∀ c : Config, c.WellFormed → { State.reset with cfg := c }.Inv

/-- Every step keeps the invariant, from every state that has it (R39). -/
def Obligations.StepKeepsInv : Prop := ∀ s t : State, s.Inv → step s = .next t → t.Inv

/-- From a state with the invariant, every step answers a next state (R8). -/
def Obligations.StepNeverStops : Prop := ∀ s : State, s.Inv → ∃ t, step s = .next t

/-- What R39(a) to (d) and R53 say of every reachable state follows from the invariant: the cursors are slot indices
and fit PTR_W bits, and every slot in the cyclic range [RD, WR) has been written. -/
def Obligations.InvGivesStatedInvariants : Prop :=
  ∀ s : State, s.Inv →
    s.rd < s.cfg.rbN ∧ s.wr < s.cfg.rbN ∧ s.rd < 2 ^ ptrW s.cfg ∧ s.wr < 2 ^ ptrW s.cfg ∧
    s.count ≤ s.cfg.rbN - 1 ∧
    (∀ k, k < s.count → ∃ b, Memory.read s.mem ((s.rd + k) % s.cfg.rbN) = some b) ∧
    (s.eng = .running → s.srcOff.toNat < srcMod s.cfg ∧ s.topReg = s.cfg.pwmTop ∧ s.ctr ≤ s.topReg ∧
      s.ccA = s.ccB) ∧
    (s.eng ≠ .running → agentEnabled .disp s = false ∧ agentEnabled .tmr s = false)
end

