-- ==== Sys2Proof/Laws/Codec.lean ====
section
/-! SUPPORT. The fields of a command word as numbers, and the fields of an assembled word. -/

namespace Sys2Proof

theorem cmdOpc_toNat (w : Half) : (cmdOpc w).toNat = w.toNat / 4096 := by
  have := w.isLt
  simp only [cmdOpc, BitVec.extractLsb'_toNat, Nat.shiftRight_eq_div_pow]
  omega

theorem cmdRsv_toNat (w : Half) : (cmdRsv w).toNat = w.toNat / 256 % 16 := by
  simp only [cmdRsv, BitVec.extractLsb'_toNat, Nat.shiftRight_eq_div_pow]

theorem cmdImm_toNat (w : Half) : (cmdImm w).toNat = w.toNat % 256 := by
  simp only [cmdImm, BitVec.extractLsb'_toNat, Nat.shiftRight_eq_div_pow]
  norm_num

/-- An assembled word as a number: OPC above twelve bits, RSV = 0, IMM8 below. -/
theorem commandWord_toNat (opc : Nibble) (imm : Byte) :
    (commandWord opc imm).toNat = opc.toNat * 4096 + imm.toNat := by
  have h := imm.isLt
  change (opc ++ ((0 : Nibble) ++ imm) : BitVec (4 + (4 + 8))).toNat = _
  rw [BitVec.toNat_append, BitVec.toNat_append]
  have hor : opc.toNat <<< (4 + 8) ||| imm.toNat = opc.toNat * 4096 + imm.toNat := by
    rw [Nat.shiftLeft_eq, Nat.mul_comm, ← Nat.two_pow_add_eq_or_of_lt (by omega)]
  simpa using hor

theorem cmdOpc_commandWord (opc : Nibble) (imm : Byte) : cmdOpc (commandWord opc imm) = opc := by
  have h := imm.isLt
  apply BitVec.eq_of_toNat_eq
  rw [cmdOpc_toNat, commandWord_toNat]
  omega

theorem cmdRsv_commandWord (opc : Nibble) (imm : Byte) : cmdRsv (commandWord opc imm) = 0 := by
  have h := imm.isLt
  apply BitVec.eq_of_toNat_eq
  rw [cmdRsv_toNat, commandWord_toNat]
  have : (0 : Nibble).toNat = 0 := rfl
  omega

theorem cmdImm_commandWord (opc : Nibble) (imm : Byte) : cmdImm (commandWord opc imm) = imm := by
  have h := imm.isLt
  apply BitVec.eq_of_toNat_eq
  rw [cmdImm_toNat, commandWord_toNat]
  omega

/-- A word whose RSV is 0 is assembled from its OPC and IMM8. -/
theorem commandWord_of_fields {w : Half} (h : cmdRsv w = 0) : commandWord (cmdOpc w) (cmdImm w) = w := by
  have hr : (cmdRsv w).toNat = 0 := by rw [h]; rfl
  rw [cmdRsv_toNat] at hr
  have := w.isLt
  apply BitVec.eq_of_toNat_eq
  rw [commandWord_toNat, cmdOpc_toNat, cmdImm_toNat]
  omega

end Sys2Proof
end

