-- ==== Sys2Proof/Laws/Memory.lean ====
section
/-! SUPPORT. The laws of RBMEM: a read after a write, and the canonical form that every operation keeps. -/

namespace Sys2Proof.Machine

@[simp] theorem Memory.read_nil (a : Nat) : Memory.read [] a = none := rfl

@[simp] theorem Memory.read_write_same (m : Memory) (a : Nat) (v : Byte) :
    Memory.read (Memory.write m a v) a = some v := by
  induction m with
  | nil => simp [Memory.write, Memory.read]
  | cons c rest ih =>
    unfold Memory.write
    split
    · simp [Memory.read]
    · split
      · simp [Memory.read]
      · simp_all [Memory.read]

theorem Memory.read_write_other (m : Memory) {a b : Nat} (v : Byte) (h : b ≠ a) :
    Memory.read (Memory.write m a v) b = Memory.read m b := by
  induction m with
  | nil => simp [Memory.write, Memory.read, h]
  | cons c rest ih =>
    unfold Memory.write
    split
    · simp [Memory.read, h]
    · split
      · rename_i hac
        subst hac
        simp [Memory.read, h]
      · simp [Memory.read, ih]

/-- Every index of the memory after a write was there before, or is the one written. -/
theorem Memory.mem_write {m : Memory} {a : Nat} {v : Byte} {c : Host.Cell}
    (h : c ∈ Memory.write m a v) : c = (a, v) ∨ c ∈ m := by
  induction m with
  | nil => simpa [Memory.write] using h
  | cons d rest ih =>
    unfold Memory.write at h
    split at h
    · simpa using h
    · split at h
      · simp only [List.mem_cons] at h ⊢
        tauto
      · simp only [List.mem_cons] at h ⊢
        tauto

/-- A write keeps the canonical form. -/
theorem Memory.wf_write {m : Memory} (a : Nat) (v : Byte) (h : Memory.wf m) :
    Memory.wf (Memory.write m a v) := by
  induction m with
  | nil => simp [Memory.wf, Memory.write]
  | cons c rest ih =>
    simp only [Memory.wf, List.pairwise_cons] at h
    unfold Memory.write
    split
    · rename_i hac
      simp only [Memory.wf, List.pairwise_cons, List.mem_cons, forall_eq_or_imp]
      exact ⟨⟨hac, fun d hd => hac.trans (h.1 d hd)⟩, h⟩
    · split
      · rename_i hac
        simp only [Memory.wf, List.pairwise_cons]
        exact ⟨fun d hd => hac ▸ h.1 d hd, h.2⟩
      · simp only [Memory.wf, List.pairwise_cons]
        refine ⟨fun d hd => ?_, ih h.2⟩
        rcases Memory.mem_write hd with rfl | hd
        · dsimp only
          omega
        · exact h.1 d hd

/-- The memory INIT leaves is canonical. -/
theorem Memory.wf_zeros (n : Nat) : Memory.wf (Memory.zeros n) := by
  simp only [Memory.wf, Memory.zeros, List.pairwise_map]
  exact List.pairwise_lt_range

/-- The memory of `State.reset` is canonical. -/
theorem Memory.wf_reset : Memory.wf State.reset.mem := List.Pairwise.nil

theorem Memory.mem_zeros {n : Nat} {c : Host.Cell} (h : c ∈ Memory.zeros n) : c.1 < n := by
  simp only [Memory.zeros, List.mem_map, List.mem_range] at h
  obtain ⟨i, hi, rfl⟩ := h
  exact hi

/-- Reading a memory that lists the slots of `l`, each holding 0. -/
theorem Memory.read_map_const (l : List Nat) (a : Nat) :
    Memory.read (l.map fun i => (i, (0 : Byte))) a = if a ∈ l then some 0 else none := by
  induction l with
  | nil => simp
  | cons b rest ih =>
    simp only [List.map_cons, Memory.read, ih, List.mem_cons]
    by_cases h : a = b <;> simp [h]

/-- INIT leaves 0 in every slot, and lists no other. -/
@[simp] theorem Memory.read_zeros (n a : Nat) :
    Memory.read (Memory.zeros n) a = if a < n then some 0 else none := by
  rw [Memory.zeros, Memory.read_map_const]
  simp only [List.mem_range]

end Sys2Proof.Machine
end

