-- ==== Sys2Proof/Laws/State.lean ====
section
/-! SUPPORT. One lemma per field per named update of the state, each true by `rfl`. -/

namespace Sys2Proof.Machine

variable (s : State)

@[simp] theorem respond_cfg (d : Word) : (s.respond d).cfg = s.cfg := rfl
@[simp] theorem respond_mem (d : Word) : (s.respond d).mem = s.mem := rfl
@[simp] theorem respond_rd (d : Word) : (s.respond d).rd = s.rd := rfl
@[simp] theorem respond_wr (d : Word) : (s.respond d).wr = s.wr := rfl
@[simp] theorem respond_srcOff (d : Word) : (s.respond d).srcOff = s.srcOff := rfl
@[simp] theorem respond_eng (d : Word) : (s.respond d).eng = s.eng := rfl
@[simp] theorem respond_topReg (d : Word) : (s.respond d).topReg = s.topReg := rfl
@[simp] theorem respond_div (d : Word) : (s.respond d).div = s.div := rfl
@[simp] theorem respond_ccA (d : Word) : (s.respond d).ccA = s.ccA := rfl
@[simp] theorem respond_ccB (d : Word) : (s.respond d).ccB = s.ccB := rfl
@[simp] theorem respond_invA (d : Word) : (s.respond d).invA = s.invA := rfl
@[simp] theorem respond_invB (d : Word) : (s.respond d).invB = s.invB := rfl
@[simp] theorem respond_pwmEn (d : Word) : (s.respond d).pwmEn = s.pwmEn := rfl
@[simp] theorem respond_inte (d : Word) : (s.respond d).inte = s.inte := rfl
@[simp] theorem respond_unmask (d : Word) : (s.respond d).unmask = s.unmask := rfl
@[simp] theorem respond_ctr (d : Word) : (s.respond d).ctr = s.ctr := rfl
@[simp] theorem respond_wrapFlag (d : Word) : (s.respond d).wrapFlag = s.wrapFlag := rfl
@[simp] theorem respond_fault (d : Word) : (s.respond d).fault = s.fault := rfl
@[simp] theorem respond_fillBusy (d : Word) : (s.respond d).fillBusy = s.fillBusy := rfl
@[simp] theorem respond_fillCnt (d : Word) : (s.respond d).fillCnt = s.fillCnt := rfl
@[simp] theorem respond_port (d : Word) : (s.respond d).port = s.port := rfl
@[simp] theorem respond_sched (d : Word) : (s.respond d).sched = s.sched := rfl
@[simp] theorem respond_draws (d : Word) : (s.respond d).draws = s.draws := rfl
@[simp] theorem respond_resets (d : Word) : (s.respond d).resets = s.resets := rfl
@[simp] theorem respond_responses (d : Word) : (s.respond d).responses = s.responses ++ [Response.success d] := rfl
@[simp] theorem respond_compares (d : Word) : (s.respond d).compares = s.compares := rfl

@[simp] theorem raise_cfg (c : FaultCode) : (s.raise c).cfg = s.cfg := rfl
@[simp] theorem raise_mem (c : FaultCode) : (s.raise c).mem = s.mem := rfl
@[simp] theorem raise_rd (c : FaultCode) : (s.raise c).rd = s.rd := rfl
@[simp] theorem raise_wr (c : FaultCode) : (s.raise c).wr = s.wr := rfl
@[simp] theorem raise_srcOff (c : FaultCode) : (s.raise c).srcOff = s.srcOff := rfl
@[simp] theorem raise_eng (c : FaultCode) : (s.raise c).eng = s.eng := rfl
@[simp] theorem raise_topReg (c : FaultCode) : (s.raise c).topReg = s.topReg := rfl
@[simp] theorem raise_div (c : FaultCode) : (s.raise c).div = s.div := rfl
@[simp] theorem raise_ccA (c : FaultCode) : (s.raise c).ccA = s.ccA := rfl
@[simp] theorem raise_ccB (c : FaultCode) : (s.raise c).ccB = s.ccB := rfl
@[simp] theorem raise_invA (c : FaultCode) : (s.raise c).invA = s.invA := rfl
@[simp] theorem raise_invB (c : FaultCode) : (s.raise c).invB = s.invB := rfl
@[simp] theorem raise_pwmEn (c : FaultCode) : (s.raise c).pwmEn = s.pwmEn := rfl
@[simp] theorem raise_inte (c : FaultCode) : (s.raise c).inte = s.inte := rfl
@[simp] theorem raise_unmask (c : FaultCode) : (s.raise c).unmask = s.unmask := rfl
@[simp] theorem raise_ctr (c : FaultCode) : (s.raise c).ctr = s.ctr := rfl
@[simp] theorem raise_wrapFlag (c : FaultCode) : (s.raise c).wrapFlag = s.wrapFlag := rfl
@[simp] theorem raise_fault (c : FaultCode) : (s.raise c).fault = firstFault s.fault c := rfl
@[simp] theorem raise_fillBusy (c : FaultCode) : (s.raise c).fillBusy = s.fillBusy := rfl
@[simp] theorem raise_fillCnt (c : FaultCode) : (s.raise c).fillCnt = s.fillCnt := rfl
@[simp] theorem raise_port (c : FaultCode) : (s.raise c).port = s.port := rfl
@[simp] theorem raise_sched (c : FaultCode) : (s.raise c).sched = s.sched := rfl
@[simp] theorem raise_draws (c : FaultCode) : (s.raise c).draws = s.draws := rfl
@[simp] theorem raise_resets (c : FaultCode) : (s.raise c).resets = s.resets := rfl
@[simp] theorem raise_responses (c : FaultCode) : (s.raise c).responses = s.responses ++ [Response.failure c] := rfl
@[simp] theorem raise_compares (c : FaultCode) : (s.raise c).compares = s.compares := rfl

@[simp] theorem commitCompare_cfg (v : Half) : (s.commitCompare v).cfg = s.cfg := rfl
@[simp] theorem commitCompare_mem (v : Half) : (s.commitCompare v).mem = s.mem := rfl
@[simp] theorem commitCompare_rd (v : Half) : (s.commitCompare v).rd = s.rd := rfl
@[simp] theorem commitCompare_wr (v : Half) : (s.commitCompare v).wr = s.wr := rfl
@[simp] theorem commitCompare_srcOff (v : Half) : (s.commitCompare v).srcOff = s.srcOff := rfl
@[simp] theorem commitCompare_eng (v : Half) : (s.commitCompare v).eng = s.eng := rfl
@[simp] theorem commitCompare_topReg (v : Half) : (s.commitCompare v).topReg = s.topReg := rfl
@[simp] theorem commitCompare_div (v : Half) : (s.commitCompare v).div = s.div := rfl
@[simp] theorem commitCompare_ccA (v : Half) : (s.commitCompare v).ccA = v := rfl
@[simp] theorem commitCompare_ccB (v : Half) : (s.commitCompare v).ccB = v := rfl
@[simp] theorem commitCompare_invA (v : Half) : (s.commitCompare v).invA = s.invA := rfl
@[simp] theorem commitCompare_invB (v : Half) : (s.commitCompare v).invB = s.invB := rfl
@[simp] theorem commitCompare_pwmEn (v : Half) : (s.commitCompare v).pwmEn = s.pwmEn := rfl
@[simp] theorem commitCompare_inte (v : Half) : (s.commitCompare v).inte = s.inte := rfl
@[simp] theorem commitCompare_unmask (v : Half) : (s.commitCompare v).unmask = s.unmask := rfl
@[simp] theorem commitCompare_ctr (v : Half) : (s.commitCompare v).ctr = s.ctr := rfl
@[simp] theorem commitCompare_wrapFlag (v : Half) : (s.commitCompare v).wrapFlag = s.wrapFlag := rfl
@[simp] theorem commitCompare_fault (v : Half) : (s.commitCompare v).fault = s.fault := rfl
@[simp] theorem commitCompare_fillBusy (v : Half) : (s.commitCompare v).fillBusy = s.fillBusy := rfl
@[simp] theorem commitCompare_fillCnt (v : Half) : (s.commitCompare v).fillCnt = s.fillCnt := rfl
@[simp] theorem commitCompare_port (v : Half) : (s.commitCompare v).port = s.port := rfl
@[simp] theorem commitCompare_sched (v : Half) : (s.commitCompare v).sched = s.sched := rfl
@[simp] theorem commitCompare_draws (v : Half) : (s.commitCompare v).draws = s.draws := rfl
@[simp] theorem commitCompare_resets (v : Half) : (s.commitCompare v).resets = s.resets := rfl
@[simp] theorem commitCompare_responses (v : Half) : (s.commitCompare v).responses = s.responses := rfl
@[simp] theorem commitCompare_compares (v : Half) : (s.commitCompare v).compares = s.compares ++ [(v, v)] := rfl

@[simp] theorem clearWrap_cfg : s.clearWrap.cfg = s.cfg := rfl
@[simp] theorem clearWrap_mem : s.clearWrap.mem = s.mem := rfl
@[simp] theorem clearWrap_rd : s.clearWrap.rd = s.rd := rfl
@[simp] theorem clearWrap_wr : s.clearWrap.wr = s.wr := rfl
@[simp] theorem clearWrap_srcOff : s.clearWrap.srcOff = s.srcOff := rfl
@[simp] theorem clearWrap_eng : s.clearWrap.eng = s.eng := rfl
@[simp] theorem clearWrap_topReg : s.clearWrap.topReg = s.topReg := rfl
@[simp] theorem clearWrap_div : s.clearWrap.div = s.div := rfl
@[simp] theorem clearWrap_ccA : s.clearWrap.ccA = s.ccA := rfl
@[simp] theorem clearWrap_ccB : s.clearWrap.ccB = s.ccB := rfl
@[simp] theorem clearWrap_invA : s.clearWrap.invA = s.invA := rfl
@[simp] theorem clearWrap_invB : s.clearWrap.invB = s.invB := rfl
@[simp] theorem clearWrap_pwmEn : s.clearWrap.pwmEn = s.pwmEn := rfl
@[simp] theorem clearWrap_inte : s.clearWrap.inte = s.inte := rfl
@[simp] theorem clearWrap_unmask : s.clearWrap.unmask = s.unmask := rfl
@[simp] theorem clearWrap_ctr : s.clearWrap.ctr = s.ctr := rfl
@[simp] theorem clearWrap_wrapFlag : s.clearWrap.wrapFlag = false := rfl
@[simp] theorem clearWrap_fault : s.clearWrap.fault = s.fault := rfl
@[simp] theorem clearWrap_fillBusy : s.clearWrap.fillBusy = s.fillBusy := rfl
@[simp] theorem clearWrap_fillCnt : s.clearWrap.fillCnt = s.fillCnt := rfl
@[simp] theorem clearWrap_port : s.clearWrap.port = s.port := rfl
@[simp] theorem clearWrap_sched : s.clearWrap.sched = s.sched := rfl
@[simp] theorem clearWrap_draws : s.clearWrap.draws = s.draws := rfl
@[simp] theorem clearWrap_resets : s.clearWrap.resets = s.resets := rfl
@[simp] theorem clearWrap_responses : s.clearWrap.responses = s.responses := rfl
@[simp] theorem clearWrap_compares : s.clearWrap.compares = s.compares := rfl

@[simp] theorem advanceWr_cfg : s.advanceWr.cfg = s.cfg := rfl
@[simp] theorem advanceWr_mem : s.advanceWr.mem = s.mem := rfl
@[simp] theorem advanceWr_rd : s.advanceWr.rd = s.rd := rfl
@[simp] theorem advanceWr_wr : s.advanceWr.wr = s.nextCursor s.wr := rfl
@[simp] theorem advanceWr_srcOff : s.advanceWr.srcOff = s.srcOff := rfl
@[simp] theorem advanceWr_eng : s.advanceWr.eng = s.eng := rfl
@[simp] theorem advanceWr_topReg : s.advanceWr.topReg = s.topReg := rfl
@[simp] theorem advanceWr_div : s.advanceWr.div = s.div := rfl
@[simp] theorem advanceWr_ccA : s.advanceWr.ccA = s.ccA := rfl
@[simp] theorem advanceWr_ccB : s.advanceWr.ccB = s.ccB := rfl
@[simp] theorem advanceWr_invA : s.advanceWr.invA = s.invA := rfl
@[simp] theorem advanceWr_invB : s.advanceWr.invB = s.invB := rfl
@[simp] theorem advanceWr_pwmEn : s.advanceWr.pwmEn = s.pwmEn := rfl
@[simp] theorem advanceWr_inte : s.advanceWr.inte = s.inte := rfl
@[simp] theorem advanceWr_unmask : s.advanceWr.unmask = s.unmask := rfl
@[simp] theorem advanceWr_ctr : s.advanceWr.ctr = s.ctr := rfl
@[simp] theorem advanceWr_wrapFlag : s.advanceWr.wrapFlag = s.wrapFlag := rfl
@[simp] theorem advanceWr_fault : s.advanceWr.fault = s.fault := rfl
@[simp] theorem advanceWr_fillBusy : s.advanceWr.fillBusy = s.fillBusy := rfl
@[simp] theorem advanceWr_fillCnt : s.advanceWr.fillCnt = s.fillCnt := rfl
@[simp] theorem advanceWr_port : s.advanceWr.port = s.port := rfl
@[simp] theorem advanceWr_sched : s.advanceWr.sched = s.sched := rfl
@[simp] theorem advanceWr_draws : s.advanceWr.draws = s.draws := rfl
@[simp] theorem advanceWr_resets : s.advanceWr.resets = s.resets := rfl
@[simp] theorem advanceWr_responses : s.advanceWr.responses = s.responses := rfl
@[simp] theorem advanceWr_compares : s.advanceWr.compares = s.compares := rfl

@[simp] theorem advanceRd_cfg : s.advanceRd.cfg = s.cfg := rfl
@[simp] theorem advanceRd_mem : s.advanceRd.mem = s.mem := rfl
@[simp] theorem advanceRd_rd : s.advanceRd.rd = s.nextCursor s.rd := rfl
@[simp] theorem advanceRd_wr : s.advanceRd.wr = s.wr := rfl
@[simp] theorem advanceRd_srcOff : s.advanceRd.srcOff = s.srcOff := rfl
@[simp] theorem advanceRd_eng : s.advanceRd.eng = s.eng := rfl
@[simp] theorem advanceRd_topReg : s.advanceRd.topReg = s.topReg := rfl
@[simp] theorem advanceRd_div : s.advanceRd.div = s.div := rfl
@[simp] theorem advanceRd_ccA : s.advanceRd.ccA = s.ccA := rfl
@[simp] theorem advanceRd_ccB : s.advanceRd.ccB = s.ccB := rfl
@[simp] theorem advanceRd_invA : s.advanceRd.invA = s.invA := rfl
@[simp] theorem advanceRd_invB : s.advanceRd.invB = s.invB := rfl
@[simp] theorem advanceRd_pwmEn : s.advanceRd.pwmEn = s.pwmEn := rfl
@[simp] theorem advanceRd_inte : s.advanceRd.inte = s.inte := rfl
@[simp] theorem advanceRd_unmask : s.advanceRd.unmask = s.unmask := rfl
@[simp] theorem advanceRd_ctr : s.advanceRd.ctr = s.ctr := rfl
@[simp] theorem advanceRd_wrapFlag : s.advanceRd.wrapFlag = s.wrapFlag := rfl
@[simp] theorem advanceRd_fault : s.advanceRd.fault = s.fault := rfl
@[simp] theorem advanceRd_fillBusy : s.advanceRd.fillBusy = s.fillBusy := rfl
@[simp] theorem advanceRd_fillCnt : s.advanceRd.fillCnt = s.fillCnt := rfl
@[simp] theorem advanceRd_port : s.advanceRd.port = s.port := rfl
@[simp] theorem advanceRd_sched : s.advanceRd.sched = s.sched := rfl
@[simp] theorem advanceRd_draws : s.advanceRd.draws = s.draws := rfl
@[simp] theorem advanceRd_resets : s.advanceRd.resets = s.resets := rfl
@[simp] theorem advanceRd_responses : s.advanceRd.responses = s.responses := rfl
@[simp] theorem advanceRd_compares : s.advanceRd.compares = s.compares := rfl

@[simp] theorem haltEngine_cfg : s.haltEngine.cfg = s.cfg := rfl
@[simp] theorem haltEngine_mem : s.haltEngine.mem = s.mem := rfl
@[simp] theorem haltEngine_rd : s.haltEngine.rd = s.rd := rfl
@[simp] theorem haltEngine_wr : s.haltEngine.wr = s.wr := rfl
@[simp] theorem haltEngine_srcOff : s.haltEngine.srcOff = s.srcOff := rfl
@[simp] theorem haltEngine_eng : s.haltEngine.eng = .faulted := rfl
@[simp] theorem haltEngine_topReg : s.haltEngine.topReg = s.topReg := rfl
@[simp] theorem haltEngine_div : s.haltEngine.div = s.div := rfl
@[simp] theorem haltEngine_ccA : s.haltEngine.ccA = s.ccA := rfl
@[simp] theorem haltEngine_ccB : s.haltEngine.ccB = s.ccB := rfl
@[simp] theorem haltEngine_invA : s.haltEngine.invA = s.invA := rfl
@[simp] theorem haltEngine_invB : s.haltEngine.invB = s.invB := rfl
@[simp] theorem haltEngine_pwmEn : s.haltEngine.pwmEn = s.pwmEn := rfl
@[simp] theorem haltEngine_inte : s.haltEngine.inte = s.inte := rfl
@[simp] theorem haltEngine_unmask : s.haltEngine.unmask = s.unmask := rfl
@[simp] theorem haltEngine_ctr : s.haltEngine.ctr = s.ctr := rfl
@[simp] theorem haltEngine_wrapFlag : s.haltEngine.wrapFlag = s.wrapFlag := rfl
@[simp] theorem haltEngine_fault : s.haltEngine.fault = s.fault := rfl
@[simp] theorem haltEngine_fillBusy : s.haltEngine.fillBusy = s.fillBusy := rfl
@[simp] theorem haltEngine_fillCnt : s.haltEngine.fillCnt = s.fillCnt := rfl
@[simp] theorem haltEngine_port : s.haltEngine.port = s.port := rfl
@[simp] theorem haltEngine_sched : s.haltEngine.sched = s.sched := rfl
@[simp] theorem haltEngine_draws : s.haltEngine.draws = s.draws := rfl
@[simp] theorem haltEngine_resets : s.haltEngine.resets = s.resets := rfl
@[simp] theorem haltEngine_responses : s.haltEngine.responses = s.responses := rfl
@[simp] theorem haltEngine_compares : s.haltEngine.compares = s.compares := rfl

@[simp] theorem acceptFill_cfg : s.acceptFill.cfg = s.cfg := rfl
@[simp] theorem acceptFill_mem : s.acceptFill.mem = s.mem := rfl
@[simp] theorem acceptFill_rd : s.acceptFill.rd = s.rd := rfl
@[simp] theorem acceptFill_wr : s.acceptFill.wr = s.wr := rfl
@[simp] theorem acceptFill_srcOff : s.acceptFill.srcOff = s.srcOff := rfl
@[simp] theorem acceptFill_eng : s.acceptFill.eng = s.eng := rfl
@[simp] theorem acceptFill_topReg : s.acceptFill.topReg = s.topReg := rfl
@[simp] theorem acceptFill_div : s.acceptFill.div = s.div := rfl
@[simp] theorem acceptFill_ccA : s.acceptFill.ccA = s.ccA := rfl
@[simp] theorem acceptFill_ccB : s.acceptFill.ccB = s.ccB := rfl
@[simp] theorem acceptFill_invA : s.acceptFill.invA = s.invA := rfl
@[simp] theorem acceptFill_invB : s.acceptFill.invB = s.invB := rfl
@[simp] theorem acceptFill_pwmEn : s.acceptFill.pwmEn = s.pwmEn := rfl
@[simp] theorem acceptFill_inte : s.acceptFill.inte = s.inte := rfl
@[simp] theorem acceptFill_unmask : s.acceptFill.unmask = s.unmask := rfl
@[simp] theorem acceptFill_ctr : s.acceptFill.ctr = s.ctr := rfl
@[simp] theorem acceptFill_wrapFlag : s.acceptFill.wrapFlag = s.wrapFlag := rfl
@[simp] theorem acceptFill_fault : s.acceptFill.fault = s.fault := rfl
@[simp] theorem acceptFill_fillBusy : s.acceptFill.fillBusy = true := rfl
@[simp] theorem acceptFill_fillCnt : s.acceptFill.fillCnt = 0 := rfl
@[simp] theorem acceptFill_port : s.acceptFill.port = s.port := rfl
@[simp] theorem acceptFill_sched : s.acceptFill.sched = s.sched := rfl
@[simp] theorem acceptFill_draws : s.acceptFill.draws = s.draws := rfl
@[simp] theorem acceptFill_resets : s.acceptFill.resets = s.resets := rfl
@[simp] theorem acceptFill_responses : s.acceptFill.responses = s.responses := rfl
@[simp] theorem acceptFill_compares : s.acceptFill.compares = s.compares := rfl

@[simp] theorem advanceFill_cfg : s.advanceFill.cfg = s.cfg := rfl
@[simp] theorem advanceFill_mem : s.advanceFill.mem = s.mem := rfl
@[simp] theorem advanceFill_rd : s.advanceFill.rd = s.rd := rfl
@[simp] theorem advanceFill_wr : s.advanceFill.wr = s.wr := rfl
@[simp] theorem advanceFill_srcOff : s.advanceFill.srcOff = BitVec.ofNat 32 ((s.srcOff.toNat + 1) % srcMod s.cfg) := rfl
@[simp] theorem advanceFill_eng : s.advanceFill.eng = s.eng := rfl
@[simp] theorem advanceFill_topReg : s.advanceFill.topReg = s.topReg := rfl
@[simp] theorem advanceFill_div : s.advanceFill.div = s.div := rfl
@[simp] theorem advanceFill_ccA : s.advanceFill.ccA = s.ccA := rfl
@[simp] theorem advanceFill_ccB : s.advanceFill.ccB = s.ccB := rfl
@[simp] theorem advanceFill_invA : s.advanceFill.invA = s.invA := rfl
@[simp] theorem advanceFill_invB : s.advanceFill.invB = s.invB := rfl
@[simp] theorem advanceFill_pwmEn : s.advanceFill.pwmEn = s.pwmEn := rfl
@[simp] theorem advanceFill_inte : s.advanceFill.inte = s.inte := rfl
@[simp] theorem advanceFill_unmask : s.advanceFill.unmask = s.unmask := rfl
@[simp] theorem advanceFill_ctr : s.advanceFill.ctr = s.ctr := rfl
@[simp] theorem advanceFill_wrapFlag : s.advanceFill.wrapFlag = s.wrapFlag := rfl
@[simp] theorem advanceFill_fault : s.advanceFill.fault = s.fault := rfl
@[simp] theorem advanceFill_fillBusy : s.advanceFill.fillBusy = s.fillBusy := rfl
@[simp] theorem advanceFill_fillCnt : s.advanceFill.fillCnt = s.fillCnt + 1 := rfl
@[simp] theorem advanceFill_port : s.advanceFill.port = s.port := rfl
@[simp] theorem advanceFill_sched : s.advanceFill.sched = s.sched := rfl
@[simp] theorem advanceFill_draws : s.advanceFill.draws = s.draws := rfl
@[simp] theorem advanceFill_resets : s.advanceFill.resets = s.resets := rfl
@[simp] theorem advanceFill_responses : s.advanceFill.responses = s.responses := rfl
@[simp] theorem advanceFill_compares : s.advanceFill.compares = s.compares := rfl

@[simp] theorem finishFill_cfg : s.finishFill.cfg = s.cfg := rfl
@[simp] theorem finishFill_mem : s.finishFill.mem = s.mem := rfl
@[simp] theorem finishFill_rd : s.finishFill.rd = s.rd := rfl
@[simp] theorem finishFill_wr : s.finishFill.wr = s.wr := rfl
@[simp] theorem finishFill_srcOff : s.finishFill.srcOff = s.srcOff := rfl
@[simp] theorem finishFill_eng : s.finishFill.eng = s.eng := rfl
@[simp] theorem finishFill_topReg : s.finishFill.topReg = s.topReg := rfl
@[simp] theorem finishFill_div : s.finishFill.div = s.div := rfl
@[simp] theorem finishFill_ccA : s.finishFill.ccA = s.ccA := rfl
@[simp] theorem finishFill_ccB : s.finishFill.ccB = s.ccB := rfl
@[simp] theorem finishFill_invA : s.finishFill.invA = s.invA := rfl
@[simp] theorem finishFill_invB : s.finishFill.invB = s.invB := rfl
@[simp] theorem finishFill_pwmEn : s.finishFill.pwmEn = s.pwmEn := rfl
@[simp] theorem finishFill_inte : s.finishFill.inte = s.inte := rfl
@[simp] theorem finishFill_unmask : s.finishFill.unmask = s.unmask := rfl
@[simp] theorem finishFill_ctr : s.finishFill.ctr = s.ctr := rfl
@[simp] theorem finishFill_wrapFlag : s.finishFill.wrapFlag = s.wrapFlag := rfl
@[simp] theorem finishFill_fault : s.finishFill.fault = s.fault := rfl
@[simp] theorem finishFill_fillBusy : s.finishFill.fillBusy = false := rfl
@[simp] theorem finishFill_fillCnt : s.finishFill.fillCnt = s.fillCnt := rfl
@[simp] theorem finishFill_port : s.finishFill.port = s.port := rfl
@[simp] theorem finishFill_sched : s.finishFill.sched = s.sched := rfl
@[simp] theorem finishFill_draws : s.finishFill.draws = s.draws := rfl
@[simp] theorem finishFill_resets : s.finishFill.resets = s.resets := rfl
@[simp] theorem finishFill_responses : s.finishFill.responses = s.responses ++ [Response.success s.fillCnt] := rfl
@[simp] theorem finishFill_compares : s.finishFill.compares = s.compares := rfl

@[simp] theorem initEffects_cfg (d : Nat) : (s.initEffects d).cfg = s.cfg := rfl
@[simp] theorem initEffects_mem (d : Nat) : (s.initEffects d).mem = Memory.zeros s.cfg.rbN := rfl
@[simp] theorem initEffects_rd (d : Nat) : (s.initEffects d).rd = 0 := rfl
@[simp] theorem initEffects_wr (d : Nat) : (s.initEffects d).wr = 0 := rfl
@[simp] theorem initEffects_srcOff (d : Nat) : (s.initEffects d).srcOff = 0 := rfl
@[simp] theorem initEffects_eng (d : Nat) : (s.initEffects d).eng = .running := rfl
@[simp] theorem initEffects_topReg (d : Nat) : (s.initEffects d).topReg = s.cfg.pwmTop := rfl
@[simp] theorem initEffects_div (d : Nat) : (s.initEffects d).div = BitVec.ofNat 32 d := rfl
@[simp] theorem initEffects_ccA (d : Nat) : (s.initEffects d).ccA = s.cfg.pwmTop >>> 1 := rfl
@[simp] theorem initEffects_ccB (d : Nat) : (s.initEffects d).ccB = s.cfg.pwmTop >>> 1 := rfl
@[simp] theorem initEffects_invA (d : Nat) : (s.initEffects d).invA = false := rfl
@[simp] theorem initEffects_invB (d : Nat) : (s.initEffects d).invB = true := rfl
@[simp] theorem initEffects_pwmEn (d : Nat) : (s.initEffects d).pwmEn = true := rfl
@[simp] theorem initEffects_inte (d : Nat) : (s.initEffects d).inte = true := rfl
@[simp] theorem initEffects_unmask (d : Nat) : (s.initEffects d).unmask = true := rfl
@[simp] theorem initEffects_ctr (d : Nat) : (s.initEffects d).ctr = 0 := rfl
@[simp] theorem initEffects_wrapFlag (d : Nat) : (s.initEffects d).wrapFlag = false := rfl
@[simp] theorem initEffects_fault (d : Nat) : (s.initEffects d).fault = s.fault := rfl
@[simp] theorem initEffects_fillBusy (d : Nat) : (s.initEffects d).fillBusy = s.fillBusy := rfl
@[simp] theorem initEffects_fillCnt (d : Nat) : (s.initEffects d).fillCnt = s.fillCnt := rfl
@[simp] theorem initEffects_port (d : Nat) : (s.initEffects d).port = s.port := rfl
@[simp] theorem initEffects_sched (d : Nat) : (s.initEffects d).sched = s.sched := rfl
@[simp] theorem initEffects_draws (d : Nat) : (s.initEffects d).draws = s.draws := rfl
@[simp] theorem initEffects_resets (d : Nat) : (s.initEffects d).resets = s.resets := rfl
@[simp] theorem initEffects_responses (d : Nat) : (s.initEffects d).responses = s.responses := rfl
@[simp] theorem initEffects_compares (d : Nat) : (s.initEffects d).compares = s.compares ++ [(s.cfg.pwmTop >>> 1, s.cfg.pwmTop >>> 1)] := rfl

@[simp] theorem afterReset_cfg : s.afterReset.cfg = s.cfg := rfl
@[simp] theorem afterReset_mem : s.afterReset.mem = [] := rfl
@[simp] theorem afterReset_rd : s.afterReset.rd = 0 := rfl
@[simp] theorem afterReset_wr : s.afterReset.wr = 0 := rfl
@[simp] theorem afterReset_srcOff : s.afterReset.srcOff = 0 := rfl
@[simp] theorem afterReset_eng : s.afterReset.eng = .uninit := rfl
@[simp] theorem afterReset_topReg : s.afterReset.topReg = 0 := rfl
@[simp] theorem afterReset_div : s.afterReset.div = 0 := rfl
@[simp] theorem afterReset_ccA : s.afterReset.ccA = 0 := rfl
@[simp] theorem afterReset_ccB : s.afterReset.ccB = 0 := rfl
@[simp] theorem afterReset_invA : s.afterReset.invA = false := rfl
@[simp] theorem afterReset_invB : s.afterReset.invB = false := rfl
@[simp] theorem afterReset_pwmEn : s.afterReset.pwmEn = false := rfl
@[simp] theorem afterReset_inte : s.afterReset.inte = false := rfl
@[simp] theorem afterReset_unmask : s.afterReset.unmask = false := rfl
@[simp] theorem afterReset_ctr : s.afterReset.ctr = 0 := rfl
@[simp] theorem afterReset_wrapFlag : s.afterReset.wrapFlag = false := rfl
@[simp] theorem afterReset_fault : s.afterReset.fault = .noFault := rfl
@[simp] theorem afterReset_fillBusy : s.afterReset.fillBusy = false := rfl
@[simp] theorem afterReset_fillCnt : s.afterReset.fillCnt = 0 := rfl
@[simp] theorem afterReset_port : s.afterReset.port = s.port := rfl
@[simp] theorem afterReset_sched : s.afterReset.sched = s.sched := rfl
@[simp] theorem afterReset_draws : s.afterReset.draws = s.draws := rfl
@[simp] theorem afterReset_resets : s.afterReset.resets = s.resets + 1 := rfl
@[simp] theorem afterReset_responses : s.afterReset.responses = s.responses := rfl
@[simp] theorem afterReset_compares : s.afterReset.compares = s.compares := rfl

@[simp] theorem withMoreWords_cfg (words : List Half) : (s.withMoreWords words).cfg = s.cfg := rfl
@[simp] theorem withMoreWords_mem (words : List Half) : (s.withMoreWords words).mem = s.mem := rfl
@[simp] theorem withMoreWords_rd (words : List Half) : (s.withMoreWords words).rd = s.rd := rfl
@[simp] theorem withMoreWords_wr (words : List Half) : (s.withMoreWords words).wr = s.wr := rfl
@[simp] theorem withMoreWords_srcOff (words : List Half) : (s.withMoreWords words).srcOff = s.srcOff := rfl
@[simp] theorem withMoreWords_eng (words : List Half) : (s.withMoreWords words).eng = s.eng := rfl
@[simp] theorem withMoreWords_topReg (words : List Half) : (s.withMoreWords words).topReg = s.topReg := rfl
@[simp] theorem withMoreWords_div (words : List Half) : (s.withMoreWords words).div = s.div := rfl
@[simp] theorem withMoreWords_ccA (words : List Half) : (s.withMoreWords words).ccA = s.ccA := rfl
@[simp] theorem withMoreWords_ccB (words : List Half) : (s.withMoreWords words).ccB = s.ccB := rfl
@[simp] theorem withMoreWords_invA (words : List Half) : (s.withMoreWords words).invA = s.invA := rfl
@[simp] theorem withMoreWords_invB (words : List Half) : (s.withMoreWords words).invB = s.invB := rfl
@[simp] theorem withMoreWords_pwmEn (words : List Half) : (s.withMoreWords words).pwmEn = s.pwmEn := rfl
@[simp] theorem withMoreWords_inte (words : List Half) : (s.withMoreWords words).inte = s.inte := rfl
@[simp] theorem withMoreWords_unmask (words : List Half) : (s.withMoreWords words).unmask = s.unmask := rfl
@[simp] theorem withMoreWords_ctr (words : List Half) : (s.withMoreWords words).ctr = s.ctr := rfl
@[simp] theorem withMoreWords_wrapFlag (words : List Half) : (s.withMoreWords words).wrapFlag = s.wrapFlag := rfl
@[simp] theorem withMoreWords_fault (words : List Half) : (s.withMoreWords words).fault = s.fault := rfl
@[simp] theorem withMoreWords_fillBusy (words : List Half) : (s.withMoreWords words).fillBusy = s.fillBusy := rfl
@[simp] theorem withMoreWords_fillCnt (words : List Half) : (s.withMoreWords words).fillCnt = s.fillCnt := rfl
@[simp] theorem withMoreWords_port (words : List Half) : (s.withMoreWords words).port = s.port ++ words := rfl
@[simp] theorem withMoreWords_sched (words : List Half) : (s.withMoreWords words).sched = s.sched := rfl
@[simp] theorem withMoreWords_draws (words : List Half) : (s.withMoreWords words).draws = s.draws := rfl
@[simp] theorem withMoreWords_resets (words : List Half) : (s.withMoreWords words).resets = s.resets := rfl
@[simp] theorem withMoreWords_responses (words : List Half) : (s.withMoreWords words).responses = s.responses := rfl
@[simp] theorem withMoreWords_compares (words : List Half) : (s.withMoreWords words).compares = s.compares := rfl

@[simp] theorem advanceCounter_cfg : s.advanceCounter.cfg = s.cfg := by
  unfold State.advanceCounter; split <;> rfl
@[simp] theorem advanceCounter_mem : s.advanceCounter.mem = s.mem := by
  unfold State.advanceCounter; split <;> rfl
@[simp] theorem advanceCounter_rd : s.advanceCounter.rd = s.rd := by
  unfold State.advanceCounter; split <;> rfl
@[simp] theorem advanceCounter_wr : s.advanceCounter.wr = s.wr := by
  unfold State.advanceCounter; split <;> rfl
@[simp] theorem advanceCounter_srcOff : s.advanceCounter.srcOff = s.srcOff := by
  unfold State.advanceCounter; split <;> rfl
@[simp] theorem advanceCounter_eng : s.advanceCounter.eng = s.eng := by
  unfold State.advanceCounter; split <;> rfl
@[simp] theorem advanceCounter_topReg : s.advanceCounter.topReg = s.topReg := by
  unfold State.advanceCounter; split <;> rfl
@[simp] theorem advanceCounter_div : s.advanceCounter.div = s.div := by
  unfold State.advanceCounter; split <;> rfl
@[simp] theorem advanceCounter_ccA : s.advanceCounter.ccA = s.ccA := by
  unfold State.advanceCounter; split <;> rfl
@[simp] theorem advanceCounter_ccB : s.advanceCounter.ccB = s.ccB := by
  unfold State.advanceCounter; split <;> rfl
@[simp] theorem advanceCounter_invA : s.advanceCounter.invA = s.invA := by
  unfold State.advanceCounter; split <;> rfl
@[simp] theorem advanceCounter_invB : s.advanceCounter.invB = s.invB := by
  unfold State.advanceCounter; split <;> rfl
@[simp] theorem advanceCounter_pwmEn : s.advanceCounter.pwmEn = s.pwmEn := by
  unfold State.advanceCounter; split <;> rfl
@[simp] theorem advanceCounter_inte : s.advanceCounter.inte = s.inte := by
  unfold State.advanceCounter; split <;> rfl
@[simp] theorem advanceCounter_unmask : s.advanceCounter.unmask = s.unmask := by
  unfold State.advanceCounter; split <;> rfl
@[simp] theorem advanceCounter_fault : s.advanceCounter.fault = s.fault := by
  unfold State.advanceCounter; split <;> rfl
@[simp] theorem advanceCounter_fillBusy : s.advanceCounter.fillBusy = s.fillBusy := by
  unfold State.advanceCounter; split <;> rfl
@[simp] theorem advanceCounter_fillCnt : s.advanceCounter.fillCnt = s.fillCnt := by
  unfold State.advanceCounter; split <;> rfl
@[simp] theorem advanceCounter_port : s.advanceCounter.port = s.port := by
  unfold State.advanceCounter; split <;> rfl
@[simp] theorem advanceCounter_sched : s.advanceCounter.sched = s.sched := by
  unfold State.advanceCounter; split <;> rfl
@[simp] theorem advanceCounter_draws : s.advanceCounter.draws = s.draws := by
  unfold State.advanceCounter; split <;> rfl
@[simp] theorem advanceCounter_resets : s.advanceCounter.resets = s.resets := by
  unfold State.advanceCounter; split <;> rfl
@[simp] theorem advanceCounter_responses : s.advanceCounter.responses = s.responses := by
  unfold State.advanceCounter; split <;> rfl
@[simp] theorem advanceCounter_compares : s.advanceCounter.compares = s.compares := by
  unfold State.advanceCounter; split <;> rfl

/-- At the top the counter wraps (R170). -/
theorem advanceCounter_of_top (h : s.ctr = s.topReg) :
    s.advanceCounter = { s with ctr := 0, wrapFlag := true } := if_pos h

/-- Below the top the counter moves on by one (R170). -/
theorem advanceCounter_of_not_top (h : s.ctr ≠ s.topReg) :
    s.advanceCounter = { s with ctr := s.ctr + 1 } := if_neg h

/-- A turn takes nothing but an entry of the schedule, or a draw. -/
theorem takeTurn_state :
    ∃ q n, s.takeTurn.2 = { s with sched := q, draws := n } := by
  unfold State.takeTurn
  split
  · exact ⟨_, s.draws, rfl⟩
  · exact ⟨s.sched, s.draws + 1, rfl⟩

end Sys2Proof.Machine
end

