-- ==== Sys2Proof/Laws/Ring.lean ====
section
/-! SUPPORT. Everything the shared ring buffer and source operations can do, said once. -/

namespace Sys2Proof.Machine

variable {s : State}

/-- The state a successful push leaves (R100). -/
def State.pushed (s : State) (v : Byte) : State :=
  { s with mem := Memory.write s.mem s.wr v, wr := s.nextCursor s.wr }

@[simp] theorem pushed_cfg (v : Byte) : (s.pushed v).cfg = s.cfg := rfl
@[simp] theorem pushed_mem (v : Byte) : (s.pushed v).mem = Memory.write s.mem s.wr v := rfl
@[simp] theorem pushed_rd (v : Byte) : (s.pushed v).rd = s.rd := rfl
@[simp] theorem pushed_wr (v : Byte) : (s.pushed v).wr = s.nextCursor s.wr := rfl
@[simp] theorem pushed_srcOff (v : Byte) : (s.pushed v).srcOff = s.srcOff := rfl
@[simp] theorem pushed_eng (v : Byte) : (s.pushed v).eng = s.eng := rfl
@[simp] theorem pushed_topReg (v : Byte) : (s.pushed v).topReg = s.topReg := rfl
@[simp] theorem pushed_div (v : Byte) : (s.pushed v).div = s.div := rfl
@[simp] theorem pushed_ccA (v : Byte) : (s.pushed v).ccA = s.ccA := rfl
@[simp] theorem pushed_ccB (v : Byte) : (s.pushed v).ccB = s.ccB := rfl
@[simp] theorem pushed_invA (v : Byte) : (s.pushed v).invA = s.invA := rfl
@[simp] theorem pushed_invB (v : Byte) : (s.pushed v).invB = s.invB := rfl
@[simp] theorem pushed_pwmEn (v : Byte) : (s.pushed v).pwmEn = s.pwmEn := rfl
@[simp] theorem pushed_inte (v : Byte) : (s.pushed v).inte = s.inte := rfl
@[simp] theorem pushed_unmask (v : Byte) : (s.pushed v).unmask = s.unmask := rfl
@[simp] theorem pushed_ctr (v : Byte) : (s.pushed v).ctr = s.ctr := rfl
@[simp] theorem pushed_wrapFlag (v : Byte) : (s.pushed v).wrapFlag = s.wrapFlag := rfl
@[simp] theorem pushed_fault (v : Byte) : (s.pushed v).fault = s.fault := rfl
@[simp] theorem pushed_fillBusy (v : Byte) : (s.pushed v).fillBusy = s.fillBusy := rfl
@[simp] theorem pushed_fillCnt (v : Byte) : (s.pushed v).fillCnt = s.fillCnt := rfl
@[simp] theorem pushed_port (v : Byte) : (s.pushed v).port = s.port := rfl
@[simp] theorem pushed_sched (v : Byte) : (s.pushed v).sched = s.sched := rfl
@[simp] theorem pushed_draws (v : Byte) : (s.pushed v).draws = s.draws := rfl
@[simp] theorem pushed_resets (v : Byte) : (s.pushed v).resets = s.resets := rfl
@[simp] theorem pushed_responses (v : Byte) : (s.pushed v).responses = s.responses := rfl
@[simp] theorem pushed_compares (v : Byte) : (s.pushed v).compares = s.compares := rfl

/-- A full buffer: nothing is inserted and nothing changes (R100). -/
theorem rbPush_of_full (v : Byte) (h : s.full = true) : s.rbPush v = .ok (false, s) := by
  simp [State.rbPush, h]

/-- Room in the buffer: the slot at WR takes the element and WR moves on (R100). -/
theorem rbPush_of_room (v : Byte) (h : s.full = false) (hw : s.wr < s.cfg.rbN) :
    s.rbPush v = .ok (true, s.pushed v) := by
  simp [State.rbPush, State.writeSlot, State.advanceWr, State.pushed, State.nextCursor, h, hw]

/-- Room in the buffer and WR outside the slots: the access does not exist. -/
theorem rbPush_of_outside (v : Byte) (h : s.full = false) (hw : s.cfg.rbN ≤ s.wr) :
    s.rbPush v = .error (.slotOutside s.wr) := by
  simp [State.rbPush, State.writeSlot, h, Nat.not_lt.mpr hw]

/-- What `rb_push` can answer. -/
theorem rbPush_cases {v : Byte} {ok : Bool} {t : State} (h : s.rbPush v = .ok (ok, t)) :
    (s.full = true ∧ ok = false ∧ t = s) ∨
      (s.full = false ∧ s.wr < s.cfg.rbN ∧ ok = true ∧ t = s.pushed v) := by
  cases hf : s.full with
  | true =>
    rw [rbPush_of_full v hf] at h
    cases h
    exact .inl ⟨rfl, rfl, rfl⟩
  | false =>
    by_cases hw : s.wr < s.cfg.rbN
    · rw [rbPush_of_room v hf hw] at h
      cases h
      exact .inr ⟨rfl, hw, rfl, rfl⟩
    · rw [rbPush_of_outside v hf (Nat.not_lt.mp hw)] at h
      cases h

/-- An empty buffer: the default element, and nothing changes (R101). -/
theorem rbPop_of_empty (h : s.empty = true) : s.rbPop = .ok (true, elemDefault, s) := by
  simp [State.rbPop, h]

/-- An element in the buffer: the one at RD, and RD moves on (R101). -/
theorem rbPop_of_element (h : s.empty = false) (hr : s.rd < s.cfg.rbN) :
    s.rbPop = .ok (false, s.slotValue s.rd, s.advanceRd) := by
  simp [State.rbPop, State.readSlot, h, hr]

/-- An element to read and RD outside the slots: the access does not exist. -/
theorem rbPop_of_outside (h : s.empty = false) (hr : s.cfg.rbN ≤ s.rd) :
    s.rbPop = .error (.slotOutside s.rd) := by
  simp [State.rbPop, State.readSlot, h, Nat.not_lt.mpr hr]

/-- What `rb_pop` can answer. -/
theorem rbPop_cases {u : Bool} {v : Byte} {t : State} (h : s.rbPop = .ok (u, v, t)) :
    (s.empty = true ∧ u = true ∧ v = elemDefault ∧ t = s) ∨
      (s.empty = false ∧ s.rd < s.cfg.rbN ∧ u = false ∧ v = s.slotValue s.rd ∧ t = s.advanceRd) := by
  cases he : s.empty with
  | true =>
    rw [rbPop_of_empty he] at h
    cases h
    exact .inl ⟨rfl, rfl, rfl, rfl⟩
  | false =>
    by_cases hr : s.rd < s.cfg.rbN
    · rw [rbPop_of_element he hr] at h
      cases h
      exact .inr ⟨rfl, hr, rfl, rfl, rfl⟩
    · rw [rbPop_of_outside he (Nat.not_lt.mp hr)] at h
      cases h

/-- The source byte at an index within SRC_LEN (R52). -/
theorem readSource_of_lt {i : Nat} (h : i < s.cfg.src.length) : s.readSource i = .ok s.cfg.src[i] := by
  simp [State.readSource, h]

end Sys2Proof.Machine
end

