-- ==== Sys2Proof/Laws/Cursor.lean ====
section
/-! SUPPORT. The arithmetic of the cursors (spec/10_state.md R19 to R22), free of division: where the next
cursor is, what COUNT is, and how a push and a pop move the queue. -/

namespace Sys2Proof.Machine

variable {s : State}

/-- The cursors are slot indices, and there are at least two slots (R5, R19, R20). -/
structure State.CursorsOk (s : State) : Prop where
  cap : 2 ≤ s.cfg.rbN
  rd : s.rd < s.cfg.rbN
  wr : s.wr < s.cfg.rbN

theorem State.Inv.cursors (h : s.Inv) : s.CursorsOk := ⟨h.config.1, h.rdInRange, h.wrInRange⟩

/-- The next cursor, by cases. -/
theorem nextCursor_eq {p : Nat} (h : p < s.cfg.rbN) :
    s.nextCursor p = if p + 1 = s.cfg.rbN then 0 else p + 1 := by
  unfold State.nextCursor
  split
  · next e => rw [e, Nat.mod_self]
  · exact Nat.mod_eq_of_lt (by omega)

theorem nextCursor_lt {p : Nat} (h : p < s.cfg.rbN) : s.nextCursor p < s.cfg.rbN :=
  Nat.mod_lt _ (by omega)

/-- COUNT, by cases. -/
theorem count_eq (h : s.CursorsOk) :
    s.count = if s.rd ≤ s.wr then s.wr - s.rd else s.wr + s.cfg.rbN - s.rd := by
  obtain ⟨hc, hr, hw⟩ := h
  unfold State.count
  split
  · rw [show s.wr + s.cfg.rbN - s.rd = (s.wr - s.rd) + s.cfg.rbN by omega, Nat.add_mod_right]
    exact Nat.mod_eq_of_lt (by omega)
  · exact Nat.mod_eq_of_lt (by omega)

/-- The slot `k` places after the one at RD, by cases. -/
theorem slotIndex_eq {p k n : Nat} (hp : p < n) (hk : k < n) :
    (p + k) % n = if p + k < n then p + k else p + k - n := by
  split
  · exact Nat.mod_eq_of_lt ‹_›
  · rw [Nat.mod_eq_sub_mod (by omega)]
    exact Nat.mod_eq_of_lt (by omega)

theorem count_lt (h : s.CursorsOk) : s.count < s.cfg.rbN := Nat.mod_lt _ (by have := h.cap; omega)

theorem empty_iff : s.empty = true ↔ s.rd = s.wr := by simp [State.empty]

theorem full_iff : s.full = true ↔ s.nextCursor s.wr = s.rd := by simp [State.full]

theorem empty_iff_count (h : s.CursorsOk) : s.empty = true ↔ s.count = 0 := by
  rw [empty_iff, count_eq h]
  obtain ⟨hc, hr, hw⟩ := h
  split <;> omega

theorem full_iff_count (h : s.CursorsOk) : s.full = true ↔ s.count + 1 = s.cfg.rbN := by
  rw [full_iff, count_eq h, nextCursor_eq h.wr]
  obtain ⟨hc, hr, hw⟩ := h
  split <;> split <;> omega

/-- A push with room adds one to COUNT. -/
theorem count_pushed (v : Byte) (h : s.CursorsOk) (hf : s.full = false) : (s.pushed v).count = s.count + 1 := by
  have h' : (s.pushed v).CursorsOk := ⟨h.cap, h.rd, nextCursor_lt h.wr⟩
  have hnf : ¬ s.nextCursor s.wr = s.rd := fun e => by simp [full_iff.mpr e] at hf
  have hc' : (s.pushed v).count = if s.rd ≤ s.nextCursor s.wr then s.nextCursor s.wr - s.rd
      else s.nextCursor s.wr + s.cfg.rbN - s.rd := count_eq h'
  have hn := nextCursor_eq h.wr
  rw [count_eq h, hc']
  obtain ⟨hc, hr, hw⟩ := h
  split at hn <;> split <;> split <;> omega

/-- A pop of an element takes one from COUNT. -/
theorem count_advanceRd (h : s.CursorsOk) (he : s.empty = false) : s.advanceRd.count + 1 = s.count := by
  have h' : s.advanceRd.CursorsOk := ⟨h.cap, nextCursor_lt h.rd, h.wr⟩
  have hne : ¬ s.rd = s.wr := fun e => by simp [empty_iff.mpr e] at he
  have hc' : s.advanceRd.count = if s.nextCursor s.rd ≤ s.wr then s.wr - s.nextCursor s.rd
      else s.wr + s.cfg.rbN - s.nextCursor s.rd := count_eq h'
  have hn := nextCursor_eq h.rd
  rw [count_eq h, hc']
  obtain ⟨hc, hr, hw⟩ := h
  split at hn <;> split <;> split <;> omega

/-- WR is the slot COUNT places after RD. -/
theorem slotIndex_count (h : s.CursorsOk) : (s.rd + s.count) % s.cfg.rbN = s.wr := by
  rw [slotIndex_eq h.rd (count_lt h), count_eq h]
  obtain ⟨hc, hr, hw⟩ := h
  split <;> split <;> omega

/-- No slot in [RD, WR) is the one at WR. -/
theorem slotIndex_ne_wr {k : Nat} (h : s.CursorsOk) (hk : k < s.count) :
    (s.rd + k) % s.cfg.rbN ≠ s.wr := by
  have hlt := count_lt h
  rw [slotIndex_eq h.rd (by omega)]
  rw [count_eq h] at hk
  obtain ⟨hc, hr, hw⟩ := h
  split at hk <;> split <;> omega

/-- The slots of the queue after RD has moved on. -/
theorem slotIndex_advanceRd (k : Nat) :
    (s.nextCursor s.rd + k) % s.cfg.rbN = (s.rd + (k + 1)) % s.cfg.rbN := by
  rw [State.nextCursor, Nat.mod_add_mod, Nat.add_assoc, Nat.add_comm 1 k]

/-- The slot values do not depend on anything but memory and the count of resets. -/
theorem slotValue_congr {t : State} (hm : t.mem = s.mem) (hr : t.resets = s.resets) (i : Nat) :
    t.slotValue i = s.slotValue i := by
  simp [State.slotValue, hm, hr]

/-- The queue does not depend on anything but the ring buffer. -/
theorem queue_congr {t : State} (hc : t.cfg = s.cfg) (hm : t.mem = s.mem) (hrs : t.resets = s.resets)
    (hr : t.rd = s.rd) (hw : t.wr = s.wr) : t.queue = s.queue := by
  simp [State.queue, State.count, State.slotValue, hc, hm, hrs, hr, hw]

/-- A push with room appends to the queue. -/
theorem queue_pushed (v : Byte) (h : s.CursorsOk) (hf : s.full = false) :
    (s.pushed v).queue = s.queue ++ [v] := by
  have hlast : (s.pushed v).slotValue ((s.rd + s.count) % s.cfg.rbN) = v := by
    rw [slotIndex_count h]
    simp [State.slotValue]
  unfold State.queue
  rw [count_pushed v h hf, List.range_succ, List.map_append]
  simp only [pushed_cfg, pushed_rd, List.map_cons, List.map_nil, hlast]
  congr 1
  refine List.map_congr_left fun k hk => ?_
  simp only [State.slotValue, pushed_mem, Memory.read_write_other _ _ (slotIndex_ne_wr h (List.mem_range.mp hk))]
  rfl

/-- A pop of an element takes the head of the queue. -/
theorem queue_advanceRd (h : s.CursorsOk) (he : s.empty = false) :
    s.queue = s.slotValue s.rd :: s.advanceRd.queue := by
  unfold State.queue
  rw [← count_advanceRd h he, List.range_succ_eq_map, List.map_cons, List.map_map]
  simp only [Nat.add_zero, Nat.mod_eq_of_lt h.rd]
  congr 1
  refine List.map_congr_left fun k _ => ?_
  simp only [Function.comp_apply, advanceRd_cfg, advanceRd_rd, slotIndex_advanceRd]
  rfl

end Sys2Proof.Machine
end

