-- ==== Sys2Proof/Laws/Exec.lean ====
section
/-! SUPPORT. What each instruction, and the FILL iteration, can do, said once: if it answers a next state, then one
of these cases holds. -/

namespace Sys2Proof.Machine

/-- `Effect i s t`: instruction `i` may take `s` to `t`, with the condition under which it does. -/
inductive Effect : Instr → State → State → Prop where
  | nop (s : State) : Effect .nop s (s.respond 0)
  | initHalted {s : State} (he : s.eng = .faulted) : Effect .init s (s.raise .halted)
  | initAgain {s : State} (hf : s.eng ≠ .faulted) (hu : s.eng ≠ .uninit) : Effect .init s (s.raise .reinit)
  | initMisconfigured {s : State} (he : s.eng = .uninit) (hm : misconfig s.cfg = true) :
      Effect .init s (s.haltEngine.raise .misconfig)
  | initDone {s : State} (he : s.eng = .uninit) (hm : misconfig s.cfg = false) :
      Effect .init s ((s.initEffects (divRaw s.cfg)).respond 0)
  | pushHalted {s : State} (v : Byte) (he : s.eng = .faulted) : Effect (.push v) s (s.raise .halted)
  | pushFull {s : State} (v : Byte) (he : s.eng ≠ .faulted) (hf : s.full = true) :
      Effect (.push v) s (s.respond 0)
  | pushDone {s : State} (v : Byte) (he : s.eng ≠ .faulted) (hf : s.full = false) (hw : s.wr < s.cfg.rbN) :
      Effect (.push v) s ((s.pushed v).respond 1)
  | popHalted {s : State} (he : s.eng = .faulted) : Effect .pop s (s.raise .halted)
  | popRunning {s : State} (he : s.eng = .running) : Effect .pop s (s.raise .spsc)
  | popEmpty {s : State} (hf : s.eng ≠ .faulted) (hr : s.eng ≠ .running) (he : s.empty = true) :
      Effect .pop s (s.respond 0x100)
  | popDone {s : State} (hf : s.eng ≠ .faulted) (hr : s.eng ≠ .running) (he : s.empty = false)
      (hrd : s.rd < s.cfg.rbN) : Effect .pop s (s.advanceRd.respond (popData false (s.slotValue s.rd)))
  | fillHalted {s : State} (he : s.eng = .faulted) : Effect .fill s (s.raise .halted)
  | fillUninit {s : State} (hf : s.eng ≠ .faulted) (hr : s.eng ≠ .running) : Effect .fill s (s.raise .uninit)
  | fillAccepted {s : State} (he : s.eng = .running) : Effect .fill s s.acceptFill
  | rdregDone {s : State} {r : Nibble} {d : Word} (hv : s.view r = some d) : Effect (.rdreg r) s (s.respond d)
  | rdregReserved {s : State} {r : Nibble} (hv : s.view r = none) : Effect (.rdreg r) s (s.raise .illegal)
  | reset (s : State) : Effect .reset s s.afterReset
  | tickOff {s : State} (hp : s.pwmEn = false) : Effect .tick s s
  | tickDone {s : State} (hp : s.pwmEn = true) : Effect .tick s s.advanceCounter
  | dispatchOff {s : State} (hd : s.dispatchEnabled = false) : Effect .dispatch s s
  | dispatchEmpty {s : State} (hd : s.dispatchEnabled = true) (he : s.empty = true) :
      Effect .dispatch s (s.commitCompare 0).clearWrap
  | dispatchDone {s : State} (hd : s.dispatchEnabled = true) (he : s.empty = false)
      (hrd : s.rd < s.cfg.rbN) :
      Effect .dispatch s (s.advanceRd.commitCompare ((s.slotValue s.rd).setWidth 16)).clearWrap

theorem execInit_effect {s t : State} (h : execInit s = .next t) : Effect .init s t := by
  unfold execInit at h
  split at h
  · cases h
    exact .initHalted ‹_›
  · split at h
    · cases h
      exact .initAgain ‹_› ‹_›
    · split at h
      · cases h
        exact .initMisconfigured (not_not.mp ‹_›) ‹_›
      · cases h
        exact .initDone (not_not.mp ‹_›) (by simpa using ‹¬ misconfig s.cfg = true›)

theorem execPush_effect {v : Byte} {s t : State} (h : execPush v s = .next t) : Effect (.push v) s t := by
  unfold execPush at h
  split at h
  · cases h
    exact .pushHalted v ‹_›
  · next he =>
    split at h
    · cases h
    · next hp =>
      cases h
      rcases rbPush_cases hp with ⟨hf, rfl, rfl⟩ | ⟨hf, hw, rfl, rfl⟩
      · exact .pushFull v he hf
      · exact .pushDone v he hf hw

theorem execPop_effect {s t : State} (h : execPop s = .next t) : Effect .pop s t := by
  unfold execPop at h
  split at h
  · cases h
    exact .popHalted ‹_›
  · next hf =>
    split at h
    · cases h
      exact .popRunning ‹_›
    · next hr =>
      split at h
      · cases h
      · next hp =>
        cases h
        rcases rbPop_cases hp with ⟨he, rfl, rfl, rfl⟩ | ⟨he, hrd, rfl, rfl, rfl⟩
        · exact .popEmpty hf hr he
        · exact .popDone hf hr he hrd

theorem execFill_effect {s t : State} (h : execFill s = .next t) : Effect .fill s t := by
  unfold execFill at h
  split at h
  · cases h
    exact .fillHalted ‹_›
  · split at h
    · cases h
      exact .fillUninit ‹_› ‹_›
    · cases h
      exact .fillAccepted (not_not.mp ‹_›)

theorem execRdreg_effect {r : Nibble} {s t : State} (h : execRdreg r s = .next t) : Effect (.rdreg r) s t := by
  unfold execRdreg at h
  split at h
  · cases h
    exact .rdregDone ‹_›
  · cases h
    exact .rdregReserved ‹_›

theorem execTick_effect {s t : State} (h : execTick s = .next t) : Effect .tick s t := by
  unfold execTick at h
  split at h
  · cases h
    exact .tickDone ‹_›
  · cases h
    exact .tickOff (by simpa using ‹¬ s.pwmEn = true›)

theorem execDispatch_effect {s t : State} (h : execDispatch s = .next t) : Effect .dispatch s t := by
  unfold execDispatch at h
  split at h
  · next hd =>
    split at h
    · cases h
    · next hp =>
      cases h
      rcases rbPop_cases hp with ⟨he, rfl, rfl, rfl⟩ | ⟨he, hrd, rfl, rfl, rfl⟩
      · exact .dispatchEmpty hd he
      · exact .dispatchDone hd he hrd
  · cases h
    exact .dispatchOff (by simpa using ‹¬ s.dispatchEnabled = true›)

/-- Everything an instruction can do. -/
theorem exec_effect {i : Instr} {s t : State} (h : exec i s = .next t) : Effect i s t := by
  cases i with
  | nop => cases h; exact .nop s
  | init => exact execInit_effect h
  | push v => exact execPush_effect h
  | pop => exact execPop_effect h
  | fill => exact execFill_effect h
  | rdreg r => exact execRdreg_effect h
  | reset => cases h; exact .reset s
  | tick => exact execTick_effect h
  | dispatch => exact execDispatch_effect h

/-- Everything a FILL iteration can do (R131). -/
theorem fillIter_cases {s t : State} (h : fillIter s = .next t) :
    (s.full = true ∧ t = s.finishFill) ∨
      (s.full = false ∧ s.wr < s.cfg.rbN ∧
        ∃ b, s.cfg.src[s.srcOff.toNat / 2]? = some b ∧ t = (s.pushed b).advanceFill) := by
  unfold fillIter at h
  split at h
  · cases h
  · next b hb =>
    have hs : s.cfg.src[s.srcOff.toNat / 2]? = some b := by
      unfold State.readSource at hb
      split at hb
      · cases hb
        assumption
      · cases hb
    split at h
    · cases h
    · next hp =>
      cases h
      rcases rbPush_cases hp with ⟨_, hok, _⟩ | ⟨hf, hw, _, rfl⟩
      · cases hok
      · exact .inr ⟨hf, hw, b, hs, rfl⟩
    · next hp =>
      cases h
      rcases rbPush_cases hp with ⟨hf, _, rfl⟩ | ⟨_, _, hok, _⟩
      · exact .inl ⟨hf, rfl⟩
      · cases hok

end Sys2Proof.Machine
end

