-- ==== Sys2Proof/Laws/PerInstr.lean ====
section
/-! SUPPORT. For every instruction: its encoding is on the port of its row of spec/opcode_table.json and has that
row's fixed bits. -/

namespace Sys2Proof.Laws.TableRow

/-- The fixed bits of a command word: under `mask` the word of `i` is `bits`. -/
def CommandBits (i : Instr) (mask bits : Half) : Prop := ∃ w, encode i = .command w ∧ w &&& mask = bits

/-- The identifier of an internal step. -/
def StepBits (i : Instr) (bits : Nibble) : Prop := encode i = .stepId bits

/-- The mask and match of the instruction's row. -/
def Statement : Instr → Prop
  | .nop => CommandBits .nop 0xFFFF 0x0000
  | .init => CommandBits .init 0xFFFF 0x1000
  | .push v => CommandBits (.push v) 0xFF00 0x2000
  | .pop => CommandBits .pop 0xFFFF 0x3000
  | .fill => CommandBits .fill 0xFFFF 0x4000
  | .rdreg r => CommandBits (.rdreg r) 0xFFF0 0x5000
  | .reset => StepBits .reset 0x1
  | .tick => StepBits .tick 0x2
  | .dispatch => StepBits .dispatch 0x3

theorem nop : Statement .nop := ⟨_, rfl, by decide⟩

theorem init : Statement .init := ⟨_, rfl, by decide⟩

theorem push (v : Byte) : Statement (.push v) := ⟨_, rfl, by revert v; decide⟩

theorem pop : Statement .pop := ⟨_, rfl, by decide⟩

theorem fill : Statement .fill := ⟨_, rfl, by decide⟩

theorem rdreg (r : Nibble) : Statement (.rdreg r) := ⟨_, rfl, by revert r; decide⟩

theorem reset : Statement .reset := rfl

theorem tick : Statement .tick := rfl

theorem dispatch : Statement .dispatch := rfl

end Sys2Proof.Laws.TableRow
end

