-- ==== Sys2Proof/Laws/Step.lean ====
section
/-! SUPPORT. What a turn and a step are, by cases. -/

namespace Sys2Proof.Machine

variable {s t : State}

theorem step_of_sched {a : Agent} {rest : List Agent} (h : s.sched = a :: rest) :
    step s = agentTurn a { s with sched := rest } := by
  simp only [step, State.takeTurn, h]

theorem step_of_no_sched (h : s.sched = []) :
    step s = agentTurn (Config.freeAgent s.draws) { s with draws := s.draws + 1 } := by
  simp only [step, State.takeTurn, h]

theorem hostTurn_of_blocked (h : s.hostBlocked = true) : hostTurn s = .next s := if_pos h

theorem hostTurn_of_filling (hb : s.hostBlocked = false) (hf : s.fillBusy = true) : hostTurn s = fillIter s := by
  simp only [hostTurn, hb, hf, Bool.false_eq_true, if_false, if_true]

theorem hostTurn_of_no_word (hf : s.fillBusy = false) (hp : s.port = []) : hostTurn s = .next s := by
  simp only [hostTurn, hf, hp, Bool.false_eq_true, if_false, ite_self]

theorem hostTurn_of_word {w : Half} {rest : List Half} (hb : s.hostBlocked = false) (hf : s.fillBusy = false)
    (hp : s.port = w :: rest) : hostTurn s = runCommand w { s with port := rest } := by
  unfold hostTurn
  rw [hb, hf, hp]
  simp only [Bool.false_eq_true, if_false]

theorem runCommand_of_legal {w : Half} {i : Instr} (h : decodeCommand w = .ok i) : runCommand w s = exec i s := by
  simp only [runCommand, h]

theorem runCommand_of_illegal {w : Half} {why : Illegal} (h : decodeCommand w = .error why) :
    runCommand w s = .next (s.raise .illegal) := by
  simp only [runCommand, h]

/-- Everything HOST's turn can do. -/
theorem hostTurn_cases (h : hostTurn s = .next t) :
    (s.hostBlocked = true ∧ t = s) ∨
      (s.hostBlocked = false ∧ s.fillBusy = true ∧ fillIter s = .next t) ∨
      (s.hostBlocked = false ∧ s.fillBusy = false ∧ s.port = [] ∧ t = s) ∨
      (s.hostBlocked = false ∧ s.fillBusy = false ∧
        ∃ w rest, s.port = w :: rest ∧ runCommand w { s with port := rest } = .next t) := by
  rcases Bool.eq_false_or_eq_true s.hostBlocked with hb | hb
  · rw [hostTurn_of_blocked hb] at h
    cases h
    exact .inl ⟨hb, rfl⟩
  · rcases Bool.eq_false_or_eq_true s.fillBusy with hf | hf
    · rw [hostTurn_of_filling hb hf] at h
      exact .inr (.inl ⟨hb, hf, h⟩)
    · rcases hp : s.port with _ | ⟨w, rest⟩
      · rw [hostTurn_of_no_word hf hp] at h
        cases h
        exact .inr (.inr (.inl ⟨hb, hf, rfl, rfl⟩))
      · rw [hostTurn_of_word hb hf hp] at h
        exact .inr (.inr (.inr ⟨hb, hf, w, rest, rfl, h⟩))

/-- Everything a command word can do. -/
theorem runCommand_cases {w : Half} (h : runCommand w s = .next t) :
    (∃ i, decodeCommand w = .ok i ∧ exec i s = .next t) ∨
      ((∃ why, decodeCommand w = .error why) ∧ t = s.raise .illegal) := by
  cases hd : decodeCommand w with
  | ok i =>
    rw [runCommand_of_legal hd] at h
    exact .inl ⟨i, rfl, h⟩
  | error why =>
    rw [runCommand_of_illegal hd] at h
    cases h
    exact .inr ⟨⟨why, rfl⟩, rfl⟩

/-- A command word decodes to a command, never to an internal step (R70). -/
theorem isCommand_of_decodeCommand {w : Half} {i : Instr} (h : decodeCommand w = .ok i) : i.isCommand = true := by
  unfold decodeCommand decodeNoOperand decodeRegister at h
  split at h
  · simp at h
  · split at h
    all_goals first | (split at h <;> simp at h; subst h; rfl) | (simp at h; subst h; rfl) | simp at h

/-- `Turn a s t`: a turn of agent `a` may take `s` to `t`, with the condition under which it does. -/
inductive Turn : Agent → State → State → Prop where
  | hostWaits {s : State} (hw : s.hostBlocked = true ∨ (s.fillBusy = false ∧ s.port = [])) : Turn .host s s
  | fillDone {s : State} (hb : s.hostBlocked = false) (hbusy : s.fillBusy = true) (hf : s.full = true) :
      Turn .host s s.finishFill
  | fillPushed {s : State} {b : Byte} (hb : s.hostBlocked = false) (hbusy : s.fillBusy = true)
      (hf : s.full = false) (hw : s.wr < s.cfg.rbN) (hs : s.cfg.src[s.srcOff.toNat / 2]? = some b) :
      Turn .host s (s.pushed b).advanceFill
  | illegal {s : State} {w : Half} {rest : List Half} {why : Illegal} (hb : s.hostBlocked = false)
      (hbusy : s.fillBusy = false) (hp : s.port = w :: rest) (hd : decodeCommand w = .error why) :
      Turn .host s ({ s with port := rest }.raise .illegal)
  | command {s t : State} {w : Half} {rest : List Half} {i : Instr} (hb : s.hostBlocked = false)
      (hbusy : s.fillBusy = false) (hp : s.port = w :: rest) (hd : decodeCommand w = .ok i)
      (he : Effect i { s with port := rest } t) : Turn .host s t
  | tick {s t : State} (he : Effect .tick s t) : Turn .tmr s t
  | dispatch {s t : State} (he : Effect .dispatch s t) : Turn .disp s t
  | reset (s : State) : Turn .resetLogic s s.afterReset

/-- Everything an agent's turn can do. -/
theorem agentTurn_turn {a : Agent} (h : agentTurn a s = .next t) : Turn a s t := by
  cases a with
  | host =>
    rcases hostTurn_cases h with ⟨hb, rfl⟩ | ⟨hb, hf, hi⟩ | ⟨_, hf, hp, rfl⟩ | ⟨hb, hf, w, rest, hp, hr⟩
    · exact .hostWaits (.inl hb)
    · rcases fillIter_cases hi with ⟨hfull, rfl⟩ | ⟨hfull, hw, b, hs, rfl⟩
      · exact .fillDone hb hf hfull
      · exact .fillPushed hb hf hfull hw hs
    · exact .hostWaits (.inr ⟨hf, hp⟩)
    · rcases runCommand_cases hr with ⟨i, hd, hx⟩ | ⟨⟨why, hd⟩, rfl⟩
      · exact .command hb hf hp hd (exec_effect hx)
      · exact .illegal hb hf hp hd
  | disp => exact .dispatch (execDispatch_effect h)
  | tmr => exact .tick (execTick_effect h)
  | resetLogic =>
    cases h
    exact .reset s

end Sys2Proof.Machine
end

