-- ==== Sys2Proof/Laws/View.lean ====
section
/-! SUPPORT. The packed words of the register view as numbers (spec/10_state.md R35, R36), so that a field is a
matter of arithmetic. -/

namespace Sys2Proof.Machine

/-- A concatenation as a number. -/
theorem append_toNat {m n : Nat} (a : BitVec m) (b : BitVec n) :
    (a ++ b).toNat = a.toNat * 2 ^ n + b.toNat := by
  rw [BitVec.toNat_append, Nat.shiftLeft_eq, Nat.mul_comm, ← Nat.two_pow_add_eq_or_of_lt b.isLt]

/-- A bit of a word as a digit of its number. -/
theorem getLsbD_eq_digit {n : Nat} (x : BitVec n) (i : Nat) :
    x.getLsbD i = decide (x.toNat / 2 ^ i % 2 = 1) := by
  rw [BitVec.getLsbD, Nat.testBit_eq_decide_div_mod_eq]

/-- The STATUS word as a number (R35). -/
theorem status_toNat (s : State) : s.status.toNat =
    s.count % 65536 * 65536 + s.fault.bits.toNat * 256 + s.irq.toNat * 32 + s.wrapFlag.toNat * 16 +
      s.eng.bits.toNat * 4 + s.full.toNat * 2 + s.empty.toNat := by
  change (BitVec.ofNat 16 s.count ++ ((0 : BitVec 5) ++ (s.fault.bits ++ ((0 : BitVec 2) ++ (bit s.irq ++
    (bit s.wrapFlag ++ (s.eng.bits ++ (bit s.full ++ bit s.empty))))))) :
      BitVec (16 + (5 + (3 + (2 + (1 + (1 + (2 + (1 + 1))))))))).toNat = _
  simp only [append_toNat, bit, BitVec.toNat_ofBool, BitVec.toNat_ofNat, BitVec.ofNat_eq_ofNat]
  omega

/-- The CTRL word as a number (R36). -/
theorem ctrl_toNat (s : State) : s.ctrl.toNat =
    s.unmask.toNat * 16 + s.inte.toNat * 8 + s.invB.toNat * 4 + s.invA.toNat * 2 + s.pwmEn.toNat := by
  change ((0 : BitVec 27) ++ (bit s.unmask ++ (bit s.inte ++ (bit s.invB ++ (bit s.invA ++ bit s.pwmEn)))) :
      BitVec (27 + (1 + (1 + (1 + (1 + 1)))))).toNat = _
  simp only [append_toNat, bit, BitVec.toNat_ofBool, BitVec.toNat_ofNat, BitVec.ofNat_eq_ofNat]
  omega

end Sys2Proof.Machine
end

