-- ==== Sys2Proof/Tests/Slice0.lean ====
section
/-! SUPPORT. Tests against the worked examples of spec/95_test_vectors.md and against words written out bit by bit
from spec/30_encoding.md, and, for each statement with hypotheses, a witness that meets them. -/

namespace Sys2Proof.Machine.Tests

/-- The state of a next outcome. -/
def stateOf : Result → Option State
  | .next t => some t
  | _ => none

/-- CFG-A after INIT (INIT-1). -/
def running : State :=
  { State.reset with
    eng := .running, topReg := 512, div := 348852, ccA := 256, ccB := 256, invB := true, pwmEn := true
    inte := true, unmask := true, mem := Memory.zeros 4 }

/-- RUNNING with IRQ = 1 and two samples, 0x80 first (DISP-1). -/
def asserted : State := { running with wrapFlag := true, mem := Memory.write running.mem 0 0x80, wr := 2 }

/-- RUNNING with a full buffer and a FILL in progress. -/
def fillingFull : State := { running with wr := 3, fillBusy := true }

/-- The engine after a failed INIT (SYS-5). -/
def halted : State := { State.reset with eng := .faulted, fault := .misconfig }

/-- UNINIT with three elements: the buffer is full (SYS-6). -/
def fullUninit : State := { State.reset with mem := [(0, 10), (1, 20), (2, 30)], wr := 3 }

/-- UNINIT and empty, with both cursors at 2 (POP-3). -/
def drained : State := { State.reset with rd := 2, wr := 2 }

/-- A state outside every run: both cursors beyond the slots. -/
def strayCursors : State := { asserted with rd := 9, wr := 7 }

/-! ### Decoding: one word per instruction, written from the patterns of R72 and R74 -/

theorem test_decode_nop : decodeCommand 0b0000000000000000 = .ok .nop := by decide

theorem test_decode_init : decodeCommand 0b0001000000000000 = .ok .init := by decide

theorem test_decode_push : decodeCommand 0b0010000010100101 = .ok (.push 0b10100101) := by decide

theorem test_decode_pop : decodeCommand 0b0011000000000000 = .ok .pop := by decide

theorem test_decode_fill : decodeCommand 0b0100000000000000 = .ok .fill := by decide

theorem test_decode_rdreg : decodeCommand 0b0101000000001010 = .ok (.rdreg 0b1010) := by decide

theorem test_decode_reset : decodeStepId 0b0001 = .ok .reset := by decide

theorem test_decode_tick : decodeStepId 0b0010 = .ok .tick := by decide

theorem test_decode_dispatch : decodeStepId 0b0011 = .ok .dispatch := by decide

/-- The illegal words of 95, Decode, and a step identifier that names no step (R72). -/
theorem test_decode_illegal :
    decodeCommand 0x0100 = .error (.reservedBits 1) ∧ decodeCommand 0x3001 = .error (.operandBits 1) ∧
      decodeCommand 0x4080 = .error (.operandBits 0x80) ∧ decodeCommand 0x5010 = .error (.operandBits 0x10) ∧
      decodeCommand 0xF000 = .error (.reservedOpcode 15) ∧ decodeStepId 4 = .error (.noSuchStep 4) := by decide

theorem test_decode_table_word :
    decodeTableWord 16 0x20FF = some (.push 255) ∧ decodeTableWord 8 0x2 = some .tick ∧
      decodeTableWord 16 0x6000 = none ∧ decodeTableWord 8 0x12 = none := by decide

/-! ### WellFormed: an ill-formed term for each check -/

theorem test_config_ok : Config.default.WellFormed := by decide

theorem test_config_one_slot : ¬ { Config.default with rbN := 1 }.WellFormed := by decide

theorem test_config_too_many_slots : ¬ { Config.default with rbN := 65537 }.WellFormed := by decide

theorem test_config_wide_divider : ¬ { Config.default with divIntBits := 17 }.WellFormed := by decide

/-- The check on SRC_LEN, on a source that is too long. -/
theorem test_config_long_source (src : List Byte) (h : src.length = 2 ^ 30 + 1) :
    ¬ { Config.default with src := src }.WellFormed := by
  simp [Config.WellFormed, Config.srcLen, h]

/-- R79: the assembler refuses RDREG 11 and the internal steps. -/
theorem test_assembles :
    (Instr.rdreg 10).Assembles = true ∧ (Instr.rdreg 11).Assembles = false ∧ Instr.tick.Assembles = false := by
  decide

/-! ### The assembler (R79, R80) -/

theorem test_asm_push : parseLine ['P', 'U', 'S', 'H', ' ', '1', '0', ' ', ';', 'x'] = some (some (.push 10)) ∧
    assemble (.push 10) = some [0x200A] ∧ assemble (.push 256) = none := by decide

theorem test_asm_rdreg : parseLine ['R', 'D', 'R', 'E', 'G', ' ', 'C', 'C', 'A'] = some (some (.rdreg 6)) ∧
    assemble (.rdreg 6) = some [0x5006] ∧ assemble (.rdreg 11) = none := by decide

theorem test_asm_pushn : parseLine ['P', 'U', 'S', 'H', 'N', ' ', '1', ',', '0', 'x', 'f', 'F'] =
    some (some (.pushn [1, 255])) ∧ assemble (.pushn [1, 255]) = some [0x2001, 0x20FF] := by decide

theorem test_asm_step : parseLine ['<', 'T', 'I', 'C', 'K', '>'] = some (some (.step .tmr)) ∧
    parseLine [' ', ';', 'x'] = some none := by decide

/-! ### One step of each instruction (95, Derived vectors) -/

/-- PUSH-3: WR wraps from 3 to 0. -/
theorem test_push_wraps :
    (stateOf (exec (.push 9) { State.reset with rd := 2, wr := 3 })).map
      (fun t => (t.wr, Memory.read t.mem 3, t.full, t.count)) = some (0, some 9, false, 2) := by decide

/-- PUSH-2: a full buffer responds 0. -/
theorem test_push_full :
    (stateOf (exec (.push 7) fullUninit)).map (fun t => (t.wr, t.responses)) =
      some (3, [⟨false, .noFault, 0⟩]) := by decide

/-- POP-2: RD wraps from 3 to 0. -/
theorem test_pop_wraps :
    (stateOf (exec .pop { State.reset with mem := [(3, 0xFF)], rd := 3 })).map
      (fun t => (t.rd, t.empty, t.responses)) = some (0, true, [⟨false, .noFault, 0x0FF⟩]) := by decide

/-- POP-3: an underrun. -/
theorem test_pop_underrun :
    (stateOf (exec .pop { State.reset with rd := 2, wr := 2 })).map (fun t => (t.rd, t.responses)) =
      some (2, [⟨false, .noFault, 0x100⟩]) := by decide

/-- INIT-1: the divider and the compare values. -/
theorem test_init_default :
    (stateOf (exec .init State.reset)).map (fun t => (t.div, t.topReg, t.ccA, t.ccB, t.eng)) =
      some (0x000552B4, 512, 256, 256, .running) := by decide

/-- INIT-3: CFG-C is misconfigured. -/
theorem test_init_misconfigured :
    (stateOf (exec .init { State.reset with cfg := { Config.default with clkHz := 1000 } })).map
      (fun t => (t.eng, t.fault, t.responses)) = some (.faulted, .misconfig, [⟨true, .misconfig, 0⟩]) := by decide

/-- FILL-6: FILL before INIT. -/
theorem test_fill_uninit :
    (stateOf (exec .fill State.reset)).map (fun t => (t.fault, t.responses)) =
      some (.uninit, [⟨true, .uninit, 0⟩]) := by decide

/-- FILL-5: SRCOFF = 5 reads SRC[2] and wraps to 0. -/
theorem test_fill_iteration :
    (stateOf (fillIter { running with srcOff := 5, wr := 1, fillBusy := true })).map
      (fun t => (Memory.read t.mem 1, t.srcOff, t.fillCnt)) = some (some 0x33, 0, 1) := by decide

/-- SYS-6: STATUS with FULL and COUNT = 3. -/
theorem test_rdreg_status_full : fullUninit.view 0 = some 0x00030002 := by decide

/-- INIT-1: CTRL, and P2: STATUS with the interrupt asserted and COUNT = 3. -/
theorem test_rdreg_ctrl_and_irq :
    running.view 8 = some 0x0000001D ∧ { running with wr := 3, wrapFlag := true }.view 0 = some 0x0003003A := by
  decide

/-- SYS-1: NOP responds 0. -/
theorem test_nop :
    (stateOf (exec .nop halted)).map (fun t => (t.fault, t.responses)) =
      some (.misconfig, [⟨false, .noFault, 0⟩]) := by decide

/-- TICK-4: with TOP_REG = 1 the counter goes to 1, and then wraps. -/
theorem test_tick_counts :
    (stateOf (exec .tick { running with topReg := 1 })).map (fun t => (t.ctr, t.wrapFlag)) = some (1, false) ∧
      (stateOf (exec .tick { running with topReg := 1, ctr := 1 })).map (fun t => (t.ctr, t.wrapFlag)) =
        some (0, true) := by decide

/-- TICK-5: no TICK before INIT. -/
theorem test_tick_off : stateOf (exec .tick State.reset) = some State.reset := by decide

/-- DISP-1. -/
theorem test_dispatch_delivers :
    (stateOf (exec .dispatch asserted)).map (fun t => (t.ccA, t.ccB, t.rd, t.count, t.wrapFlag)) =
      some (0x80, 0x80, 1, 1, false) := by decide

/-- DISP-2: an underrun writes 0, not the mid-scale 256. -/
theorem test_dispatch_underrun :
    (stateOf (exec .dispatch { asserted with wr := 0 })).map (fun t => (t.ccA, t.ccB, t.rd, t.wrapFlag)) =
      some (0, 0, 0, false) := by decide

/-- RESET abandons a FILL without a response (R240). -/
theorem test_reset :
    (stateOf (exec .reset fillingFull)).map (fun t => (t.eng, t.fillBusy, t.mem, t.responses)) =
      some (.uninit, false, [], []) := by decide

/-! ### The step -/

/-- A placed word runs on the very next step. -/
theorem test_step_placed_word :
    (stateOf (step (State.reset.withFetchWord 16 0x200A))).map (fun t => (Memory.read t.mem 0, t.wr)) =
      some (some 10, 1) ∧
    (stateOf (step (running.withFetchWord 8 0x2))).map (fun t => t.ctr) = some 1 := by decide

/-- A word is placed before a FILL in progress, too. -/
theorem test_step_placed_word_while_filling :
    (stateOf (step (fillingFull.withFetchWord 16 0x5009))).map (fun t => t.responses) =
      some [⟨false, .noFault, 4⟩] := by decide

/-- FLT-3: a PUSH with RSV not 0 is illegal before it is halted. -/
theorem test_step_illegal_word :
    (stateOf (step (halted.withFetchWord 16 0x2100))).map (fun t => (t.fault, t.responses)) =
      some (.misconfig, [⟨true, .illegal, 0⟩]) := by decide

/-- R175: the outputs are complementary while the compare values are equal and INV_B = 1. -/
theorem test_outputs : running.outA = true ∧ running.outB = false := by decide

/-! ### Witnesses: states that meet the hypotheses of the statements -/

theorem inv_running : running.Inv := by constructor <;> decide

theorem inv_asserted : asserted.Inv := by constructor <;> decide

theorem inv_fillingFull : fillingFull.Inv := by constructor <;> decide

theorem inv_halted : halted.Inv := by constructor <;> decide

theorem inv_drained : drained.Inv := by constructor <;> decide

theorem witness_EncodeOfDecode : decode (.command 0x20FF) = .ok (.push 255) ∧ decode (.stepId 3) = .ok .dispatch := by
  decide

theorem witness_CommandDecoderIsTotal : (decodeCommand 0x6000).toOption = none ∧ 11 ≤ (11 : Nibble).toNat := by decide

/-- A word of each kind of illegality, at its boundary, and legal words beside them. -/
theorem witness_IllegalWordsOnlyFault :
    (IllegalWord 0x6000 ∧ IllegalWord 0x2100 ∧ IllegalWord 0x4001 ∧ IllegalWord 0x5010 ∧ IllegalWord 0x500B) ∧
      ¬ IllegalWord 0x500A ∧ ¬ IllegalWord 0x20FF ∧ ¬ IllegalWord 0x4000 := by
  refine ⟨⟨?_, ?_, ?_, ?_, ?_⟩, ?_, ?_, ?_⟩ <;> unfold IllegalWord <;> decide

theorem witness_AssemblerEmitsLegalWords : assemble (.rdreg 10) = some [0x500A] := by decide

theorem witness_StepRunsDecodedCommand :
    (let s : State := { running with sched := [.host], port := [0x3000] }
     s.sched = .host :: [] ∧ s.hostBlocked = false ∧ s.fillBusy = false ∧ s.port = 0x3000 :: []) ∧
    decodeCommand 0x3000 = .ok .pop ∧
    (let s : State := { running with sched := [.host], port := [0x6000] }
     s.sched = .host :: [] ∧ s.hostBlocked = false ∧ s.fillBusy = false ∧ s.port = 0x6000 :: []) ∧
    (decodeCommand 0x6000).toOption = none := by decide

theorem witness_StepRunsInternalSteps :
    ({ running with sched := [.tmr, .disp, .resetLogic] } : State).sched = .tmr :: [.disp, .resetLogic] := by decide

theorem witness_StepIteratesFillWhileBusy :
    ({ fillingFull with sched := [.host] } : State).hostBlocked = false ∧ fillingFull.fillBusy = true := by decide

theorem witness_HostWithoutStepWaits :
    let s : State := { asserted with cfg := { Config.default with isrStrict := true }, sched := [.host] }
    (s.sched = .host :: [] ∧ s.cfg.isrStrict = true ∧ s.eng = .running ∧ s.wrapFlag = true ∧ s.inte = true ∧
      s.unmask = true) ∧ s.fillBusy = false ∧ s.port = [] := by decide

theorem witness_StepDrawsFreeAgent : State.reset.sched = [] := rfl

theorem witness_PushStoresElement :
    running.eng ≠ .faulted ∧ (running.wr + 1) % running.cfg.rbN ≠ running.rd ∧ running.wr < running.cfg.rbN := by decide

theorem witness_PushIntoFullChangesNothing :
    fullUninit.eng ≠ .faulted ∧ (fullUninit.wr + 1) % fullUninit.cfg.rbN = fullUninit.rd := by decide

theorem witness_PushMovesFlags :
    2 ≤ running.cfg.rbN ∧ running.rd < running.cfg.rbN ∧ running.wr < running.cfg.rbN ∧ running.eng ≠ .faulted ∧
      running.full = false := by decide

theorem witness_PopReturnsOldest :
    fullUninit.eng ≠ .faulted ∧ fullUninit.eng ≠ .running ∧ fullUninit.rd ≠ fullUninit.wr ∧
      fullUninit.rd < fullUninit.cfg.rbN := by decide

theorem witness_UnderrunIsIdempotent :
    drained.eng ≠ .faulted ∧ drained.eng ≠ .running ∧ drained.rd = drained.wr := by decide

theorem witness_DeliveryMovesFlags :
    (2 ≤ fullUninit.cfg.rbN ∧ fullUninit.rd < fullUninit.cfg.rbN ∧ fullUninit.wr < fullUninit.cfg.rbN ∧
      fullUninit.empty = false ∧ fullUninit.eng ≠ .faulted ∧ fullUninit.eng ≠ .running) ∧
    asserted.rd < asserted.cfg.rbN ∧ asserted.wr < asserted.cfg.rbN ∧ asserted.empty = false ∧
      asserted.dispatchEnabled = true := by decide

theorem witness_FlagsFollowCount :
    2 ≤ fullUninit.cfg.rbN ∧ fullUninit.rd < fullUninit.cfg.rbN ∧ fullUninit.wr < fullUninit.cfg.rbN := by decide

theorem witness_AccessOutsideStorageStops :
    (strayCursors.eng ≠ .faulted ∧ strayCursors.full = false ∧ strayCursors.cfg.rbN ≤ strayCursors.wr) ∧
    (let s : State := { strayCursors with eng := .uninit }
     s.eng ≠ .faulted ∧ s.eng ≠ .running ∧ s.empty = false ∧ s.cfg.rbN ≤ s.rd) ∧
    (strayCursors.dispatchEnabled = true ∧ strayCursors.empty = false ∧ strayCursors.cfg.rbN ≤ strayCursors.rd) ∧
    (let s : State := { running with srcOff := 6 }
     s.cfg.srcLen ≤ s.srcOff.toNat / 2) := by decide

theorem witness_UsableCapacity :
    drained.Inv ∧ drained.eng ≠ .faulted ∧ drained.rd = drained.wr ∧
      [(10 : Byte), 20, 30].length = drained.cfg.rbN - 1 := ⟨inv_drained, by decide, rfl, rfl⟩

theorem witness_RoundTrip :
    drained.Inv ∧ drained.eng = .uninit ∧ drained.rd = drained.wr ∧
      [(10 : Byte), 20, 30].length ≤ drained.cfg.rbN - 1 := ⟨inv_drained, rfl, rfl, by decide⟩

/-- One turn of each agent but the reset logic, on a state where each has a step. -/
theorem witness_DeliveredInOrderPushed :
    ∃ t, { asserted with port := [0x2011] }.Inv ∧ Agent.resetLogic ∉ [Agent.host, .tmr, .disp] ∧
      runTurns [.host, .tmr, .disp] { asserted with port := [0x2011] } = .next t ∧
      ¬ (asserted.eng = .uninit ∧ t.eng = .running) ∧
      alongTurns deliveredPiece [.host, .tmr, .disp] { asserted with port := [0x2011] } = [0x80] :=
  ⟨_, by constructor <;> decide, by decide, rfl, by decide, by decide⟩

theorem witness_ReadSlotsWereWritten : asserted.Inv ∧ asserted.empty = false := ⟨inv_asserted, by decide⟩

theorem witness_InitProgramsTheBlock :
    State.reset.eng = .uninit ∧ State.reset.cfg.srcLen ≠ 0 ∧ State.reset.cfg.clkHz ≠ 0 ∧
      State.reset.cfg.targetRate ≠ 0 ∧ State.reset.cfg.pwmTop ≠ 0 ∧
      2 ^ State.reset.cfg.fracBits ≤ 2 ^ State.reset.cfg.fracBits * State.reset.cfg.clkHz /
        (State.reset.cfg.pwmTop.toNat * State.reset.cfg.targetRate) ∧
      2 ^ State.reset.cfg.fracBits * State.reset.cfg.clkHz /
        (State.reset.cfg.pwmTop.toNat * State.reset.cfg.targetRate) ≤
          2 ^ (State.reset.cfg.divIntBits + State.reset.cfg.fracBits) - 1 := by decide

theorem witness_InitClearsFlags :
    2 ≤ State.reset.cfg.rbN ∧ State.reset.eng = .uninit ∧
      (stateOf (exec .init State.reset)).map (fun t => t.eng) = some .running := by decide

/-- A configuration for each clause: INIT-3, INIT-4, INIT-9 to INIT-12. -/
theorem witness_MisconfiguredInitHalts :
    State.reset.eng = .uninit ∧ { Config.default with src := [] }.srcLen = 0 ∧
      { Config.default with clkHz := 0 }.clkHz = 0 ∧ { Config.default with targetRate := 0 }.targetRate = 0 ∧
      { Config.default with pwmTop := 0 }.pwmTop = 0 ∧ 2 ^ 16 * 1000 / (512 * 48800) < 2 ^ 16 ∧
      2 ^ (8 + 16) - 1 < 2 ^ 16 * 133000000 / (1 * 1) := by decide

theorem witness_FillIsAccepted : running.eng = .running := rfl

theorem witness_FillIterationPushesSource :
    running.cfg.src[running.srcOff.toNat / 2]? = some 0x11 ∧ running.full = false ∧ running.wr < running.cfg.rbN := by
  decide

theorem witness_FillIterationCompletes :
    fillingFull.srcOff.toNat / 2 < fillingFull.cfg.srcLen ∧ fillingFull.full = true := by decide

theorem witness_FillFillsToCapacity :
    running.Inv ∧ running.eng = .running ∧ 3 + running.count = running.cfg.rbN - 1 := ⟨inv_running, rfl, by decide⟩

theorem witness_FillGoesOnAfterDispatch :
    let s : State := { asserted with fillBusy := true }
    s.Inv ∧ s.fillBusy = true ∧ s.dispatchEnabled = true ∧ s.empty = false :=
  ⟨by constructor <;> decide, by decide, by decide, by decide⟩

/-- Two FILL iterations with a TICK between them push two bytes. -/
theorem witness_SourceBytesInOrder :
    let s : State := { running with fillBusy := true }
    s.Inv ∧ s.eng = .running ∧ s.srcOff = 0 ∧ Agent.resetLogic ∉ [Agent.host, .tmr, .host] ∧
      (alongTurns fillPushedPiece [.host, .tmr, .host] s).length = 2 :=
  ⟨by constructor <;> decide, rfl, rfl, by decide, by decide⟩

theorem witness_RdregReadsView : (10 : Nibble).toNat ≤ 10 ∧ 11 ≤ (11 : Nibble).toNat := by decide

theorem witness_StatusWordFields : fullUninit.rd < fullUninit.cfg.rbN ∧ fullUninit.cfg.rbN ≤ 65536 := by decide

theorem witness_ResetClearsTheBlock : 2 ≤ fillingFull.cfg.rbN := by decide

theorem witness_TickCountsAndWraps : running.pwmEn = true ∧ { running with ctr := 512 }.ctr = running.topReg := by
  decide

theorem witness_DispatchDeliversSample :
    asserted.eng = .running ∧ asserted.wrapFlag = true ∧ asserted.inte = true ∧ asserted.unmask = true ∧
      asserted.rd ≠ asserted.wr ∧ asserted.rd < asserted.cfg.rbN := by decide

theorem witness_DispatchUnderrunWritesZero :
    let s : State := { asserted with wr := 0 }
    s.eng = .running ∧ s.wrapFlag = true ∧ s.inte = true ∧ s.unmask = true ∧ s.rd = s.wr := by decide

theorem witness_DisabledStepsWait :
    State.reset.pwmEn = false ∧ State.reset.eng ≠ .running ∧ running.wrapFlag = false := by decide

theorem witness_DispatchesAtMostWraps :
    running.wrapFlag = false ∧
      (alongTurns dispatchPiece [.tmr, .disp] { running with ctr := 512 }).length = 1 := by decide

theorem witness_StateTestsFault :
    running.eng = .running ∧ (running.eng ≠ .faulted ∧ running.eng ≠ .uninit) ∧
      State.reset.eng ≠ .faulted ∧ State.reset.eng ≠ .running := by decide

theorem witness_HaltedEngine : halted.Inv ∧ halted.eng = .faulted ∧ (10 : Nibble).toNat ≤ 10 ∧
    11 ≤ (11 : Nibble).toNat := ⟨inv_halted, rfl, by decide, by decide⟩

theorem witness_FirstFaultIsKept :
    Agent.host ≠ .resetLogic ∧
      (stateOf (agentTurn .host { running with port := [0x3000] })).map (fun t => t.fault) = some .spsc := by decide

theorem witness_EachCommandRespondsOnce :
    (stateOf (runCommand 0x4000 running)).map (fun t => t.responses) = some [] ∧
      (stateOf (runCommand 0x1000 running)).map (fun t => t.responses) = some [⟨true, .reinit, 0⟩] ∧
      (stateOf (exec .tick running)).map (fun t => t.responses) = some [] ∧
      (stateOf (fillIter { running with fillBusy := true })).map (fun t => (t.fillBusy, t.responses)) =
        some (true, []) ∧
      (stateOf (fillIter fillingFull)).map (fun t => (t.fillBusy, t.responses)) =
        some (false, [⟨false, .noFault, 0⟩]) := by decide

theorem witness_OnlyTheirWritersWrite :
    Instr.tick ≠ .reset ∧ (stateOf (exec .tick running)).isSome = true ∧
      (stateOf (fillIter fillingFull)).isSome = true ∧ fillingFull.full = true ∧
      (decodeCommand 0x2100).toOption = none ∧ (stateOf (runCommand 0x2100 running)).isSome = true := by decide

/-- The RD clause by POP, and the FILL_BUSY clause by a FILL that is accepted. -/
theorem witness_OnlyTheirWritersWrite_pop_fill :
    (stateOf (exec .pop fullUninit)).map (fun t => decide (t.rd ≠ fullUninit.rd)) = some true ∧
      (stateOf (exec .fill running)).map (fun t => decide (t.fillBusy ≠ running.fillBusy)) = some true := by decide

theorem witness_EngineTransitions :
    (stateOf (exec .init State.reset)).map (fun t => decide (t.eng ≠ State.reset.eng)) = some true ∧
      (stateOf (fillIter fillingFull)).isSome = true := by decide

theorem witness_ConfigurationIsFixed : (stateOf (step { running with sched := [.tmr] })).isSome = true := by decide

theorem witness_StepKeepsMemoryCanonical :
    Memory.wf running.mem ∧ (stateOf (step (running.withFetchWord 16 0x20FF))).isSome = true := by decide

theorem witness_StepKeepsInv :
    { running with sched := [.tmr] }.Inv ∧ (stateOf (step { running with sched := [.tmr] })).isSome = true :=
  ⟨by constructor <;> decide, by decide⟩

/-- The smallest configuration: two slots and a source of one byte. -/
theorem witness_InvAtReset : { Config.default with rbN := 2, src := [0x55] }.WellFormed := by decide

theorem witness_StepNeverStops : running.Inv := inv_running

theorem witness_InvGivesStatedInvariants :
    (running.Inv ∧ running.eng = .running) ∧ (drained.Inv ∧ drained.eng ≠ .running) ∧
      asserted.Inv ∧ 1 < asserted.count := ⟨⟨inv_running, rfl⟩, ⟨inv_drained, by decide⟩, inv_asserted, by decide⟩

/-! ### A weakly fair run: HOST, TMR and DISP in turn, from a FILL that finds the buffer full -/

/-- The agents in turn. -/
def inTurn (n : Nat) : Agent := if n % 3 = 0 then .host else if n % 3 = 1 then .tmr else .disp

/-- The state after a turn, or the same one where there is none. -/
def after (a : Agent) (s : State) : State := (stateOf (agentTurn a s)).getD s

/-- The states of the run. -/
def runStates : Nat → State
  | 0 => fillingFull
  | n + 1 => after (inTurn n) (runStates n)

/-- An idle host and RD within the slots: no turn of these three agents stops, and it stays so. -/
theorem after_idle {a : Agent} {s : State} (ha : a ≠ .resetLogic)
    (h : s.rd < s.cfg.rbN ∧ s.port = [] ∧ s.fillBusy = false) :
    agentTurn a s = .next (after a s) ∧
      (after a s).rd < (after a s).cfg.rbN ∧ (after a s).port = [] ∧ (after a s).fillBusy = false := by
  have key : ∃ t, agentTurn a s = .next t ∧ t.rd < t.cfg.rbN ∧ t.port = [] ∧ t.fillBusy = false := by
    cases a with
    | host => exact ⟨s, hostTurn_of_no_word h.2.2 h.2.1, h⟩
    | tmr =>
      refine ⟨if s.pwmEn then s.advanceCounter else s, rfl, ?_⟩
      split
      · simpa using h
      · exact h
    | resetLogic => exact absurd rfl ha
    | disp =>
      cases hd : s.dispatchEnabled with
      | false => exact ⟨s, by simp [agentTurn, exec, execDispatch, hd], h⟩
      | true =>
        cases he : s.empty with
        | true =>
          refine ⟨(s.commitCompare (elemDefault.setWidth 16)).clearWrap, ?_, h⟩
          simp [agentTurn, exec, execDispatch, hd, rbPop_of_empty he]
        | false =>
          refine ⟨(s.advanceRd.commitCompare ((s.slotValue s.rd).setWidth 16)).clearWrap, ?_, ?_, h.2⟩
          · simp [agentTurn, exec, execDispatch, hd, rbPop_of_element he h.1]
          · exact Nat.mod_lt _ (by have := h.1; omega)
  obtain ⟨t, ht, hrest⟩ := key
  have : after a s = t := by simp [after, ht, stateOf]
  rw [this]
  exact ⟨ht, hrest⟩

theorem inTurn_ne_reset (n : Nat) : inTurn n ≠ .resetLogic := by
  unfold inTurn
  split
  · decide
  · split <;> decide

theorem runStates_idle (n : Nat) :
    (runStates (n + 1)).rd < (runStates (n + 1)).cfg.rbN ∧ (runStates (n + 1)).port = [] ∧
      (runStates (n + 1)).fillBusy = false := by
  induction n with
  | zero => decide
  | succ n ih => exact (after_idle (inTurn_ne_reset _) ih).2

theorem runStates_isRun : IsRun inTurn runStates := by
  have more : ∀ s : State, s.withMoreWords [] = s := fun s => by simp [State.withMoreWords]
  intro n
  refine ⟨[], ?_⟩
  rw [more]
  cases n with
  | zero => rfl
  | succ n => exact (after_idle (inTurn_ne_reset _) (runStates_idle n)).1

theorem runStates_fair : WeaklyFair inTurn runStates := by
  intro a ha n _
  cases a with
  | host => exact ⟨3 * n, by omega, by simp [inTurn]⟩
  | tmr => exact ⟨3 * n + 1, by omega, by simp [inTurn, Nat.add_mod]⟩
  | disp => exact ⟨3 * n + 2, by omega, by simp [inTurn, Nat.add_mod]⟩
  | resetLogic => exact absurd rfl ha

theorem witness_FairFillCompletes :
    IsRun inTurn runStates ∧ WeaklyFair inTurn runStates ∧ (runStates 0).Inv ∧
      (runStates 0).cfg.isrStrict = false ∧ (runStates 0).fillBusy = true ∧
      ∀ n, (∀ k, k ≤ n → (runStates k).fillBusy = true) → inTurn n ≠ .disp ∧ inTurn n ≠ .resetLogic := by
  refine ⟨runStates_isRun, runStates_fair, inv_fillingFull, rfl, rfl, fun n hn => ?_⟩
  cases n with
  | zero => decide
  | succ n =>
    have h := hn (n + 1) (Nat.le_refl _)
    rw [(runStates_idle n).2.2] at h
    cases h

theorem witness_FairCounterKeepsTicking :
    IsRun inTurn runStates ∧ WeaklyFair inTurn runStates ∧ (runStates 0).Inv ∧ (runStates 0).eng = .running ∧
      ∀ n, inTurn n ≠ .resetLogic :=
  ⟨runStates_isRun, runStates_fair, inv_fillingFull, rfl, inTurn_ne_reset⟩

end Sys2Proof.Machine.Tests
end

section
/-! PROOFS. What every step keeps: the configuration (spec/00_scope.md R5). -/

namespace Sys2Proof.Machine

variable {s t : State}

/-- No instruction writes the configuration (R5). -/
theorem Effect.cfg_eq {i : Instr} (h : Effect i s t) : t.cfg = s.cfg := by
  cases h with
  | tickDone => exact advanceCounter_cfg s
  | _ => rfl

/-- No turn writes the configuration (R5). -/
theorem Turn.cfg_eq {a : Agent} (h : Turn a s t) : t.cfg = s.cfg := by
  cases h with
  | command _ _ _ _ he | tick he | dispatch he => exact he.cfg_eq
  | _ => rfl

@[simp] theorem takeTurn_cfg (s : State) : s.takeTurn.2.cfg = s.cfg := by
  obtain ⟨q, n, hq⟩ := takeTurn_state s
  rw [hq]

/-- A step is the turn of the agent that moves next. -/
theorem step_turn (h : step s = .next t) : Turn s.takeTurn.1 s.takeTurn.2 t := agentTurn_turn h

end Sys2Proof.Machine
end

section
/-! PROOFS. From a state whose accesses exist, every instruction and every turn answers a next state
(spec/00_scope.md R8). -/

namespace Sys2Proof.Machine

variable {s : State}

/-- The accesses the next turn may make are to indices that exist: both cursors are slots, and a FILL in progress
reads within SRCROM (spec/20_memory.md R50). -/
structure State.AccessesExist (s : State) : Prop where
  rd : s.rd < s.cfg.rbN
  wr : s.wr < s.cfg.rbN
  src : s.fillBusy = true → s.srcOff.toNat / 2 < s.cfg.src.length

/-- A FILL is in progress only while RUNNING, where SRCOFF is below SRC_MOD (R39(c), R39(d)). -/
theorem State.Inv.accessesExist (h : s.Inv) : s.AccessesExist where
  rd := h.rdInRange
  wr := h.wrInRange
  src := fun hbusy => by
    have hrun : s.eng = .running := by
      by_contra hne
      obtain ⟨-, -, -, -, hidle⟩ := h.quiet hne
      simp [hidle] at hbusy
    have hoff : s.srcOff.toNat < 2 * s.cfg.src.length := (h.running hrun).1
    omega

theorem rbPush_answers (v : Byte) (hw : s.wr < s.cfg.rbN) : ∃ r, s.rbPush v = .ok r := by
  cases hf : s.full with
  | true => exact ⟨_, rbPush_of_full v hf⟩
  | false => exact ⟨_, rbPush_of_room v hf hw⟩

theorem rbPop_answers (hr : s.rd < s.cfg.rbN) : ∃ r, s.rbPop = .ok r := by
  cases he : s.empty with
  | true => exact ⟨_, rbPop_of_empty he⟩
  | false => exact ⟨_, rbPop_of_element he hr⟩

theorem execInit_answers (s : State) : ∃ t, execInit s = .next t := by
  unfold execInit
  split_ifs <;> exact ⟨_, rfl⟩

theorem execPush_answers (v : Byte) (hw : s.wr < s.cfg.rbN) : ∃ t, execPush v s = .next t := by
  obtain ⟨⟨ok, t⟩, hp⟩ := rbPush_answers v hw
  unfold execPush
  rw [hp]
  split_ifs <;> exact ⟨_, rfl⟩

theorem execPop_answers (hr : s.rd < s.cfg.rbN) : ∃ t, execPop s = .next t := by
  obtain ⟨⟨u, v, t⟩, hp⟩ := rbPop_answers hr
  unfold execPop
  rw [hp]
  split_ifs <;> exact ⟨_, rfl⟩

theorem execFill_answers (s : State) : ∃ t, execFill s = .next t := by
  unfold execFill
  split_ifs <;> exact ⟨_, rfl⟩

theorem execRdreg_answers (r : Nibble) (s : State) : ∃ t, execRdreg r s = .next t := by
  unfold execRdreg
  split <;> exact ⟨_, rfl⟩

theorem execDispatch_answers (hr : s.rd < s.cfg.rbN) : ∃ t, execDispatch s = .next t := by
  obtain ⟨⟨u, v, t⟩, hp⟩ := rbPop_answers hr
  unfold execDispatch
  rw [hp]
  split_ifs <;> exact ⟨_, rfl⟩

/-- With both cursors slot indices, no instruction stops the machine. -/
theorem exec_answers (i : Instr) (hr : s.rd < s.cfg.rbN) (hw : s.wr < s.cfg.rbN) : ∃ t, exec i s = .next t := by
  cases i with
  | nop | reset | tick => exact ⟨_, rfl⟩
  | init => exact execInit_answers s
  | push v => exact execPush_answers v hw
  | pop => exact execPop_answers hr
  | fill => exact execFill_answers s
  | rdreg r => exact execRdreg_answers r s
  | dispatch => exact execDispatch_answers hr

/-- A FILL iteration reads within SRCROM and pushes at WR, so it does not stop (R131). -/
theorem fillIter_answers (hw : s.wr < s.cfg.rbN) (hs : s.srcOff.toNat / 2 < s.cfg.src.length) :
    ∃ t, fillIter s = .next t := by
  obtain ⟨⟨ok, t⟩, hp⟩ := rbPush_answers s.cfg.src[s.srcOff.toNat / 2] hw
  unfold fillIter
  simp only [readSource_of_lt hs, hp]
  cases ok <;> exact ⟨_, rfl⟩

theorem runCommand_answers (w : Half) (hr : s.rd < s.cfg.rbN) (hw : s.wr < s.cfg.rbN) :
    ∃ t, runCommand w s = .next t := by
  cases hd : decodeCommand w with
  | ok i =>
    rw [runCommand_of_legal hd]
    exact exec_answers i hr hw
  | error why => exact ⟨_, runCommand_of_illegal hd⟩

theorem hostTurn_answers (h : s.AccessesExist) : ∃ t, hostTurn s = .next t := by
  cases hb : s.hostBlocked with
  | true => exact ⟨_, hostTurn_of_blocked hb⟩
  | false =>
    cases hf : s.fillBusy with
    | true =>
      rw [hostTurn_of_filling hb hf]
      exact fillIter_answers h.wr (h.src hf)
    | false =>
      cases hp : s.port with
      | nil => exact ⟨_, hostTurn_of_no_word hf hp⟩
      | cons w rest =>
        rw [hostTurn_of_word hb hf hp]
        exact runCommand_answers w h.rd h.wr

/-- No turn of any agent stops the machine where the accesses exist. -/
theorem agentTurn_answers (a : Agent) (h : s.AccessesExist) : ∃ t, agentTurn a s = .next t := by
  cases a with
  | host => exact hostTurn_answers h
  | disp => exact exec_answers .dispatch h.rd h.wr
  | tmr => exact exec_answers .tick h.rd h.wr
  | resetLogic => exact exec_answers .reset h.rd h.wr

/-- Whose turn it is does not matter to what exists. -/
theorem State.AccessesExist.takeTurn (h : s.AccessesExist) : s.takeTurn.2.AccessesExist := by
  obtain ⟨q, n, hq⟩ := takeTurn_state s
  rw [hq]
  exact ⟨h.rd, h.wr, h.src⟩

end Sys2Proof.Machine
end

section
/-! PROOFS. Infinite runs (spec/00_scope.md R9): an induction over them, the counter of a running block, and the
progress of a FILL. -/

namespace Sys2Proof.Machine

variable {s t : State} {agents : Nat → Agent} {states : Nat → State}

/-- Between two states of a run lies a turn, before which the host may have more words to present. -/
theorem IsRun.turn (h : IsRun agents states) (n : Nat) :
    ∃ words, Turn (agents n) ((states n).withMoreWords words) (states (n + 1)) := by
  obtain ⟨words, hw⟩ := h n
  exact ⟨words, agentTurn_turn hw⟩

/-- The counter is enabled in a running block. -/
structure State.Ticking (s : State) : Prop where
  eng : s.eng = .running
  pwmEn : s.pwmEn = true

theorem State.Inv.ticking (h : s.Inv) (hr : s.eng = .running) : s.Ticking := by
  obtain ⟨-, -, -, -, -, hen, -⟩ := h.running hr
  exact ⟨hr, hen⟩

/-- No instruction but RESET stops the counter of a running block: INIT changes ENG in UNINIT only (R120). -/
theorem Effect.ticking {i : Instr} (h : Effect i s t) (hi : i ≠ .reset) (hs : s.Ticking) : t.Ticking := by
  obtain ⟨hrun, hen⟩ := hs
  cases h with
  | initMisconfigured he | initDone he => simp [hrun] at he
  | reset => exact absurd rfl hi
  | tickDone => exact ⟨by simpa using hrun, by simpa using hen⟩
  | _ => exact ⟨hrun, hen⟩

/-- A command is no RESET. -/
theorem ne_reset_of_decodeCommand {w : Half} {i : Instr} (h : decodeCommand w = .ok i) : i ≠ .reset := by
  rintro rfl
  simpa [Instr.isCommand] using isCommand_of_decodeCommand h

/-- No turn but that of the reset logic stops the counter of a running block. -/
theorem Turn.ticking {a : Agent} (h : Turn a s t) (ha : a ≠ .resetLogic) (hs : s.Ticking) : t.Ticking := by
  cases h with
  | command _ _ _ hd he => exact he.ticking (ne_reset_of_decodeCommand hd) ⟨hs.eng, hs.pwmEn⟩
  | tick he | dispatch he => exact he.ticking (by decide) hs
  | reset => exact absurd rfl ha
  | _ => exact ⟨hs.eng, hs.pwmEn⟩

/-- Without RESET the counter of a running block stays enabled. -/
theorem IsRun.ticking (h : IsRun agents states) (h0 : (states 0).Ticking) (hr : ∀ n, agents n ≠ .resetLogic)
    (n : Nat) : (states n).Ticking := by
  induction n with
  | zero => exact h0
  | succ n ih =>
    obtain ⟨words, hturn⟩ := h.turn n
    exact hturn.ticking (hr n) ⟨ih.eng, ih.pwmEn⟩

/-- The free slots of the buffer: how many iterations of a FILL still push (spec/41_engine.md R132(a)). -/
def State.freeSlots (s : State) : Nat := s.cfg.rbN - 1 - s.count

@[simp] theorem freeSlots_withMoreWords (words : List Half) : (s.withMoreWords words).freeSlots = s.freeSlots := rfl

@[simp] theorem freeSlots_advanceCounter (s : State) : s.advanceCounter.freeSlots = s.freeSlots := by
  simp [State.freeSlots, State.count]

@[simp] theorem freeSlots_advanceFill (s : State) : s.advanceFill.freeSlots = s.freeSlots := rfl

/-- A push with room takes one of the free slots. -/
theorem freeSlots_pushed (v : Byte) (h : s.CursorsOk) (hf : s.full = false) :
    (s.pushed v).freeSlots + 1 = s.freeSlots := by
  have hroom : s.count + 1 ≠ s.cfg.rbN := fun e => by simp [(full_iff_count h).mpr e] at hf
  have hlt := count_lt h
  simp only [State.freeSlots, count_pushed v h hf, pushed_cfg]
  omega

/-- A FILL is in progress and nothing blocks HOST (R208): what stays so until the FILL completes. -/
structure State.Filling (s : State) : Prop where
  cursors : s.CursorsOk
  busy : s.fillBusy = true
  free : s.cfg.isrStrict = false

theorem State.Filling.withMoreWords (h : s.Filling) (words : List Half) : (s.withMoreWords words).Filling :=
  ⟨⟨h.cursors.cap, h.cursors.rd, h.cursors.wr⟩, h.busy, h.free⟩

theorem State.Filling.not_blocked (h : s.Filling) : s.hostBlocked = false := by
  simp [State.hostBlocked, h.free]

theorem State.Filling.hostEnabled (h : s.Filling) : agentEnabled .host s = true := by
  simp [agentEnabled, h.not_blocked, h.busy]

/-- HOST's turn during a FILL that does not complete it is an iteration that pushes (R131). -/
theorem Turn.pushes_of_filling (h : Turn .host s t) (hs : s.Filling) (hbusy : t.fillBusy = true) :
    ∃ b, s.full = false ∧ t = (s.pushed b).advanceFill := by
  cases h with
  | hostWaits hw => simp [hs.not_blocked, hs.busy] at hw
  | fillDone => simp [State.finishFill] at hbusy
  | @fillPushed _ b _ _ hf => exact ⟨b, hf, rfl⟩
  | illegal _ hidle | command _ hidle => simp [hs.busy] at hidle

/-- TMR's turn is a tick of the counter or nothing (R170). -/
theorem Turn.tmr_cases (h : Turn .tmr s t) : t = s ∨ t = s.advanceCounter := by
  cases h with
  | tick he =>
    cases he with
    | tickOff => exact .inl rfl
    | tickDone => exact .inr rfl

/-- A turn of HOST that does not complete the FILL uses up a free slot, and the FILL goes on. -/
theorem Turn.filling_host (h : Turn .host s t) (hs : s.Filling) (hbusy : t.fillBusy = true) :
    t.Filling ∧ t.freeSlots < s.freeSlots := by
  obtain ⟨b, hroom, rfl⟩ := h.pushes_of_filling hs hbusy
  refine ⟨⟨⟨hs.cursors.cap, hs.cursors.rd, nextCursor_lt hs.cursors.wr⟩, hbusy, hs.free⟩, ?_⟩
  have := freeSlots_pushed b hs.cursors hroom
  rw [freeSlots_advanceFill]
  omega

/-- A turn of TMR leaves a FILL and the free slots as they are. -/
theorem Turn.filling_tmr (h : Turn .tmr s t) (hs : s.Filling) : t.Filling ∧ t.freeSlots = s.freeSlots := by
  rcases h.tmr_cases with rfl | rfl
  · exact ⟨hs, rfl⟩
  · obtain ⟨⟨hcap, hrd, hwr⟩, hbusy, hfree⟩ := hs
    exact ⟨⟨⟨by simpa, by simpa, by simpa⟩, by simpa, by simpa⟩, freeSlots_advanceCounter _⟩

section
variable (hrun : IsRun agents states) (hbusy : ∀ n, (states n).fillBusy = true)
  (hagents : ∀ n, agents n ≠ .disp ∧ agents n ≠ .resetLogic)
include hrun hbusy hagents

/-- A turn of a run whose FILL never completes: HOST's uses up a free slot, and no turn frees one. -/
theorem IsRun.filling_succ {n : Nat} (hs : (states n).Filling) :
    (states (n + 1)).Filling ∧ (states (n + 1)).freeSlots ≤ (states n).freeSlots ∧
      (agents n = .host → (states (n + 1)).freeSlots < (states n).freeSlots) := by
  obtain ⟨words, hturn⟩ := hrun.turn n
  have hs' := hs.withMoreWords words
  obtain ⟨hdisp, hreset⟩ := hagents n
  cases ha : agents n with
  | host =>
    rw [ha] at hturn
    obtain ⟨hfill, hlt⟩ := hturn.filling_host hs' (hbusy _)
    exact ⟨hfill, hlt.le, fun _ => hlt⟩
  | tmr =>
    rw [ha] at hturn
    obtain ⟨hfill, heq⟩ := hturn.filling_tmr hs'
    exact ⟨hfill, heq.le, nofun⟩
  | disp => exact absurd ha hdisp
  | resetLogic => exact absurd ha hreset

/-- A FILL that never completes is in progress in every state. -/
theorem IsRun.filling (h0 : (states 0).Filling) (n : Nat) : (states n).Filling := by
  induction n with
  | zero => exact h0
  | succ n ih => exact (hrun.filling_succ hbusy hagents ih).1

/-- No weakly fair run has a FILL in progress for ever: HOST would have a turn after the one state of the run with
the fewest free slots, and would leave fewer still. -/
theorem IsRun.not_filling_forever (hfair : WeaklyFair agents states) : ¬ (states 0).Filling := by
  intro h0
  have hfill := hrun.filling hbusy hagents h0
  have hanti : Antitone fun n => (states n).freeSlots :=
    antitone_nat_of_succ_le fun n => (hrun.filling_succ hbusy hagents (hfill n)).2.1
  obtain ⟨m, hm, hhost⟩ := hfair .host (by decide) (Function.argmin fun n => (states n).freeSlots)
    fun m _ => (hfill m).hostEnabled
  have hless := (hrun.filling_succ hbusy hagents (hfill m)).2.2 hhost
  exact Function.not_lt_argmin (fun n => (states n).freeSlots) (m + 1) (hless.trans_le (hanti hm))

end

end Sys2Proof.Machine
end

section
/-! PROOFS. The obligations of spec/00_scope.md that rest on the lemmas above. -/

namespace Sys2Proof.Machine

/-- Settles O55: no turn writes the configuration, and taking a turn does not either. -/
theorem configurationIsFixed : Obligations.ConfigurationIsFixed := by
  intro s t h
  rw [(step_turn h).cfg_eq, takeTurn_cfg]

/-- Settles O59: under the invariant every access a turn may make exists. -/
theorem stepNeverStops : Obligations.StepNeverStops :=
  fun _ h => agentTurn_answers _ h.accessesExist.takeTurn

/-- Settles O48: TMR stays enabled for ever, so weak fairness gives it a turn after every point. -/
theorem fairCounterKeepsTicking : Obligations.FairCounterKeepsTicking := by
  intro agents states hrun hfair hinv heng hreset n
  have hticking := hrun.ticking (hinv.ticking heng) hreset
  obtain ⟨m, hm, htmr⟩ := hfair .tmr (by decide) n fun m _ => (hticking m).pwmEn
  exact ⟨m, hm, htmr, (hticking m).pwmEn⟩

/-- Settles O34: were FILL_BUSY never 0, the FILL would be in progress for ever, with no DISPATCH to make room. -/
theorem fairFillCompletes : Obligations.FairFillCompletes := by
  intro agents states hrun hfair hinv hfree hbusy0 hagents
  by_contra hnever
  have hbusy : ∀ n, (states n).fillBusy = true := fun n => by simpa using not_exists.mp hnever n
  exact hrun.not_filling_forever hbusy (fun n => hagents n fun k _ => hbusy k) hfair ⟨hinv.cursors, hbusy0, hfree⟩

end Sys2Proof.Machine
end

section
/-! PROOFS. Who writes each piece of state (spec/10_state.md R37): an instruction that changed a piece is one of
its writers, under its condition. -/

namespace Sys2Proof.Machine

variable {i : Instr} {s t : State}

/-- The step is an INIT that succeeded (spec/41_engine.md R120). -/
def InitSucceeds (i : Instr) (s t : State) : Prop := i = .init ∧ s.eng = .uninit ∧ t.eng = .running

theorem Effect.of_mem_ne (h : Effect i s t) (hi : i ≠ .reset) (hne : t.mem ≠ s.mem) :
    (i = .init ∧ s.eng = .uninit ∧ t.eng = .running ∧ t.mem = Memory.zeros s.cfg.rbN) ∨
      ((∃ v, i = .push v) ∧ s.eng ≠ .faulted ∧ s.full = false) := by
  cases h with
  | initDone he => exact .inl ⟨rfl, he, rfl, rfl⟩
  | pushDone v he hf => exact .inr ⟨⟨v, rfl⟩, he, hf⟩
  | reset => exact absurd rfl hi
  | tickDone => exact absurd (advanceCounter_mem s) hne
  | _ => exact absurd rfl hne

theorem Effect.of_rd_ne (h : Effect i s t) (hi : i ≠ .reset) (hne : t.rd ≠ s.rd) :
    InitSucceeds i s t ∨ (i = .pop ∧ s.empty = false ∧ s.eng ≠ .faulted ∧ s.eng ≠ .running) ∨
      (i = .dispatch ∧ s.empty = false) := by
  cases h with
  | initDone he => exact .inl ⟨rfl, he, rfl⟩
  | popDone hf hr he => exact .inr (.inl ⟨rfl, he, hf, hr⟩)
  | dispatchDone _ he => exact .inr (.inr ⟨rfl, he⟩)
  | reset => exact absurd rfl hi
  | tickDone => exact absurd (advanceCounter_rd s) hne
  | _ => exact absurd rfl hne

theorem Effect.of_wr_ne (h : Effect i s t) (hi : i ≠ .reset) (hne : t.wr ≠ s.wr) :
    InitSucceeds i s t ∨ ((∃ v, i = .push v) ∧ s.eng ≠ .faulted ∧ s.full = false) := by
  cases h with
  | initDone he => exact .inl ⟨rfl, he, rfl⟩
  | pushDone v he hf => exact .inr ⟨⟨v, rfl⟩, he, hf⟩
  | reset => exact absurd rfl hi
  | tickDone => exact absurd (advanceCounter_wr s) hne
  | _ => exact absurd rfl hne

/-- ENG moves only in INIT, from UNINIT to RUNNING or to FAULTED, and in RESET (R24, R124). -/
theorem Effect.of_eng_ne (h : Effect i s t) (hne : t.eng ≠ s.eng) :
    (i = .init ∧ s.eng = .uninit ∧ (t.eng = .running ∨ t.eng = .faulted)) ∨ (i = .reset ∧ t.eng = .uninit) := by
  cases h with
  | initMisconfigured he => exact .inl ⟨rfl, he, .inr rfl⟩
  | initDone he => exact .inl ⟨rfl, he, .inl rfl⟩
  | reset => exact .inr ⟨rfl, rfl⟩
  | tickDone => exact absurd (advanceCounter_eng s) hne
  | _ => exact absurd rfl hne

/-- The registers that INIT alone programs are as they were: SRCOFF, TOP_REG, DIV and the CTRL fields. -/
structure SameProgram (s t : State) : Prop where
  srcOff : t.srcOff = s.srcOff
  topReg : t.topReg = s.topReg
  div : t.div = s.div
  invA : t.invA = s.invA
  invB : t.invB = s.invB
  pwmEn : t.pwmEn = s.pwmEn
  inte : t.inte = s.inte
  unmask : t.unmask = s.unmask

theorem Effect.init_or_sameProgram (h : Effect i s t) (hi : i ≠ .reset) :
    InitSucceeds i s t ∨ SameProgram s t := by
  cases h with
  | initDone he => exact .inl ⟨rfl, he, rfl⟩
  | reset => exact absurd rfl hi
  | tickDone => exact .inr (by constructor <;> simp)
  | _ => exact .inr ⟨rfl, rfl, rfl, rfl, rfl, rfl, rfl, rfl⟩

theorem Effect.of_compare_ne (h : Effect i s t) (hi : i ≠ .reset) (hne : t.ccA ≠ s.ccA ∨ t.ccB ≠ s.ccB) :
    InitSucceeds i s t ∨ i = .dispatch := by
  cases h with
  | initDone he => exact .inl ⟨rfl, he, rfl⟩
  | dispatchOff | dispatchEmpty | dispatchDone => exact .inr rfl
  | reset => exact absurd rfl hi
  | _ => simp at hne

theorem Effect.of_ctr_ne (h : Effect i s t) (hi : i ≠ .reset) (hne : t.ctr ≠ s.ctr) :
    InitSucceeds i s t ∨ i = .tick := by
  cases h with
  | initDone he => exact .inl ⟨rfl, he, rfl⟩
  | tickOff | tickDone => exact .inr rfl
  | reset => exact absurd rfl hi
  | _ => exact absurd rfl hne

theorem Effect.of_wrapFlag_ne (h : Effect i s t) (hi : i ≠ .reset) (hne : t.wrapFlag ≠ s.wrapFlag) :
    (i = .init ∧ s.eng = .uninit ∧ t.eng = .running ∧ t.wrapFlag = false) ∨
      (i = .tick ∧ s.ctr = s.topReg ∧ t.wrapFlag = true) ∨ (i = .dispatch ∧ t.wrapFlag = false) := by
  cases h with
  | initDone he => exact .inl ⟨rfl, he, rfl, rfl⟩
  | tickDone =>
    by_cases htop : s.ctr = s.topReg
    · exact .inr (.inl ⟨rfl, htop, by rw [advanceCounter_of_top s htop]⟩)
    · exact absurd (by rw [advanceCounter_of_not_top s htop]) hne
  | dispatchEmpty | dispatchDone => exact .inr (.inr ⟨rfl, rfl⟩)
  | reset => exact absurd rfl hi
  | _ => exact absurd rfl hne

theorem Effect.of_fill_ne (h : Effect i s t) (hi : i ≠ .reset)
    (hne : t.fillBusy ≠ s.fillBusy ∨ t.fillCnt ≠ s.fillCnt) : i = .fill ∧ s.eng = .running := by
  cases h with
  | fillAccepted he => exact ⟨rfl, he⟩
  | reset => exact absurd rfl hi
  | _ => simp at hne

/-- What a step without RESET does to FAULT (R32): it leaves FAULT and responds at most a success, or it responds
a failure whose code FAULT takes if it was 0. -/
def FirstFaultRule (s t : State) : Prop :=
  (t.fault = s.fault ∧ (t.responses = s.responses ∨ ∃ d, t.responses = s.responses ++ [⟨false, .noFault, d⟩])) ∨
    ∃ c, c ≠ .noFault ∧ t.responses = s.responses ++ [⟨true, c, 0⟩] ∧
      t.fault = if s.fault = .noFault then c else s.fault

theorem firstFaultRule_of_silent (hf : t.fault = s.fault) (hr : t.responses = s.responses) : FirstFaultRule s t :=
  .inl ⟨hf, .inl hr⟩

theorem firstFaultRule_of_success {d : Word} (hf : t.fault = s.fault)
    (hr : t.responses = s.responses ++ [Response.success d]) : FirstFaultRule s t :=
  .inl ⟨hf, .inr ⟨d, hr⟩⟩

theorem firstFaultRule_raise (s : State) {c : FaultCode} (hc : c ≠ .noFault) : FirstFaultRule s (s.raise c) :=
  .inr ⟨c, hc, rfl, rfl⟩

theorem Effect.firstFaultRule (h : Effect i s t) (hi : i ≠ .reset) : FirstFaultRule s t := by
  cases h with
  | initHalted | initAgain | pushHalted | popHalted | popRunning | fillHalted | fillUninit | rdregReserved =>
    exact firstFaultRule_raise s (by decide)
  | initMisconfigured => exact firstFaultRule_raise s.haltEngine (by decide)
  | nop | initDone | pushFull | pushDone | popEmpty | popDone | rdregDone => exact firstFaultRule_of_success rfl rfl
  | fillAccepted | tickOff | dispatchOff | dispatchEmpty | dispatchDone => exact firstFaultRule_of_silent rfl rfl
  | tickDone => exact firstFaultRule_of_silent (advanceCounter_fault s) (advanceCounter_responses s)
  | reset => exact absurd rfl hi

theorem Turn.firstFaultRule {a : Agent} (h : Turn a s t) (ha : a ≠ .resetLogic) : FirstFaultRule s t := by
  cases h with
  | hostWaits | fillPushed => exact firstFaultRule_of_silent rfl rfl
  | fillDone => exact firstFaultRule_of_success rfl rfl
  | @illegal _ _ rest => exact firstFaultRule_raise { s with port := rest } (by decide)
  | command _ _ _ hd he => exact he.firstFaultRule (ne_reset_of_decodeCommand hd)
  | tick he | dispatch he => exact he.firstFaultRule (by decide)
  | reset => exact absurd rfl ha

/-- FAULT changes only from 0, and the step's response then carries the code (R32, R201). -/
theorem FirstFaultRule.of_fault_ne (h : FirstFaultRule s t) (hne : t.fault ≠ s.fault) :
    s.fault = .noFault ∧ t.responses = s.responses ++ [⟨true, t.fault, 0⟩] := by
  rcases h with ⟨hf, -⟩ | ⟨c, -, hr, hf⟩
  · exact absurd hf hne
  · split at hf
    · next h0 => exact ⟨h0, hf ▸ hr⟩
    · exact absurd hf hne

/-- The pieces of state that a FILL iteration may write (R37, R131). -/
theorem fillIter_frame (h : fillIter s = .next t) :
    t = { s with mem := t.mem, wr := t.wr, srcOff := t.srcOff, fillBusy := t.fillBusy, fillCnt := t.fillCnt,
                 responses := t.responses } := by
  rcases fillIter_cases h with ⟨-, rfl⟩ | ⟨-, -, b, -, rfl⟩ <;> rfl

/-- A FILL iteration that finds the buffer full completes the FILL (R131). -/
theorem fillIter_of_full (h : fillIter s = .next t) (hf : s.full = true) : t = s.finishFill := by
  rcases fillIter_cases h with ⟨-, rfl⟩ | ⟨hroom, -⟩
  · rfl
  · simp [hf] at hroom

theorem runCommand_of_undecoded {w : Half} (hd : (decodeCommand w).toOption = none) :
    runCommand w s = .next (s.raise .illegal) := by
  cases he : decodeCommand w with
  | ok i => simp [he, Except.toOption] at hd
  | error why => exact runCommand_of_illegal he

end Sys2Proof.Machine
end

section
/-! PROOFS. The invariant (spec/10_state.md R39): it holds after reset, and each named update keeps it where a step
makes that update. -/

namespace Sys2Proof.Machine

variable {s t : State}

/-- The reset values meet the invariant under every legal configuration (R38, R241). -/
theorem inv_reset_of_wellFormed {c : Config} (h : c.WellFormed) : { State.reset with cfg := c }.Inv where
  config := h
  rdInRange := Nat.zero_lt_of_lt h.1
  wrInRange := Nat.zero_lt_of_lt h.1
  memWf := Memory.wf_reset
  slotsInRange := nofun
  liveWritten := fun k hk => by simp [State.count, State.reset] at hk
  compareEqual := rfl
  divHigh := Nat.zero_le _
  notConfigured := nofun
  running := nofun
  quiet := fun _ => ⟨rfl, rfl, rfl, rfl, rfl⟩
  halted := nofun

/-- What INIT accepts (spec/41_engine.md R122). -/
theorem misconfig_eq_false_iff (c : Config) : misconfig c = false ↔
    c.srcLen ≠ 0 ∧ c.clkHz ≠ 0 ∧ c.targetRate ≠ 0 ∧ c.pwmTop ≠ 0 ∧ divOne c ≤ divRaw c ∧
      divRaw c ≤ divRawMax c := by
  unfold misconfig
  split_ifs <;> grind

theorem firstFault_ne_noFault {c : FaultCode} (old : FaultCode) (hc : c ≠ .noFault) :
    firstFault old c ≠ .noFault := by
  unfold firstFault
  split <;> assumption

namespace State.Inv

/-! #### Updates outside the ring buffer -/

theorem takeTurn (h : s.Inv) : s.takeTurn.2.Inv := by
  obtain ⟨q, n, hq⟩ := takeTurn_state s
  rw [hq]
  exact { h with }

theorem withPort (h : s.Inv) (words : List Half) : { s with port := words }.Inv := { h with }

theorem afterReset (h : s.Inv) : s.afterReset.Inv := { inv_reset_of_wellFormed h.config with }

theorem respond (h : s.Inv) (d : Word) : (s.respond d).Inv := { h with }

theorem raise (h : s.Inv) {c : FaultCode} (hc : c ≠ .noFault) : (s.raise c).Inv :=
  { h with halted := fun _ => firstFault_ne_noFault s.fault hc }

/-- The failed INIT halts an idle engine and records the fault (R120). -/
theorem haltEngine_raise (h : s.Inv) (he : s.eng = .uninit) : (s.haltEngine.raise .misconfig).Inv :=
  { h with
    notConfigured := nofun
    running := nofun
    quiet := fun _ => h.quiet (by simp [he])
    halted := fun _ => firstFault_ne_noFault s.fault (by decide) }

theorem commitCompare (h : s.Inv) (v : Half) : (s.commitCompare v).Inv := { h with compareEqual := rfl }

theorem clearWrap (h : s.Inv) : s.clearWrap.Inv :=
  { h with
    quiet := fun hne => by
      obtain ⟨hen, hinte, hunmask, -, hidle⟩ := h.quiet hne
      exact ⟨hen, hinte, hunmask, rfl, hidle⟩ }

theorem eng_of_pwmEn (h : s.Inv) (hen : s.pwmEn = true) : s.eng = .running := by
  by_contra hne
  obtain ⟨hoff, -⟩ := h.quiet hne
  simp [hoff] at hen

theorem eng_of_fillBusy (h : s.Inv) (hbusy : s.fillBusy = true) : s.eng = .running := by
  by_contra hne
  obtain ⟨-, -, -, -, hidle⟩ := h.quiet hne
  simp [hidle] at hbusy

/-- The counter stays within TOP_REG: it wraps there (R39(c), R170). -/
theorem advanceCounter (h : s.Inv) (hen : s.pwmEn = true) : s.advanceCounter.Inv := by
  have hrun := h.eng_of_pwmEn hen
  obtain ⟨hoff, htop, htop0, hctr, hregs⟩ := h.running hrun
  by_cases hwrap : s.ctr = s.topReg
  · rw [advanceCounter_of_top s hwrap]
    exact { h with
      running := fun _ => ⟨hoff, htop, htop0, BitVec.le_def.mpr (Nat.zero_le _), hregs⟩
      quiet := fun hne => absurd hrun hne }
  · rw [advanceCounter_of_not_top s hwrap]
    have hle : s.ctr + 1 ≤ s.topReg := by bv_omega
    exact { h with running := fun _ => ⟨hoff, htop, htop0, hle, hregs⟩ }

theorem acceptFill (h : s.Inv) (hrun : s.eng = .running) : s.acceptFill.Inv :=
  { h with quiet := fun hne => absurd hrun hne }

theorem finishFill (h : s.Inv) : s.finishFill.Inv :=
  { h with
    quiet := fun hne => by
      obtain ⟨hen, hinte, hunmask, hwrap, -⟩ := h.quiet hne
      exact ⟨hen, hinte, hunmask, hwrap, rfl⟩ }

/-- SRCOFF stays below SRC_MOD (R39(c), R131). -/
theorem advanceFill (h : s.Inv) (hrun : s.eng = .running) : s.advanceFill.Inv := by
  obtain ⟨hoff, hregs⟩ := h.running hrun
  have hoff' : s.advanceFill.srcOff.toNat < srcMod s.cfg := by
    have hlt := Nat.mod_lt (s.srcOff.toNat + 1) (Nat.zero_lt_of_lt hoff)
    rw [advanceFill_srcOff, BitVec.toNat_ofNat]
    exact (Nat.mod_le _ _).trans_lt hlt
  exact { h with running := fun _ => ⟨hoff', hregs⟩ }

/-! #### The ring buffer -/

theorem pushed (h : s.Inv) (v : Byte) (hroom : s.full = false) : (s.pushed v).Inv :=
  { h with
    wrInRange := nextCursor_lt h.wrInRange
    memWf := Memory.wf_write s.wr v h.memWf
    slotsInRange := fun c hc => by
      rcases Memory.mem_write hc with rfl | hold
      · exact h.wrInRange
      · exact h.slotsInRange c hold
    liveWritten := fun k hk => by
      rw [count_pushed v h.cursors hroom] at hk
      simp only [pushed_mem, pushed_rd, pushed_cfg]
      rcases Nat.lt_succ_iff_lt_or_eq.mp hk with hold | rfl
      · rw [Memory.read_write_other _ _ (slotIndex_ne_wr h.cursors hold)]
        exact h.liveWritten k hold
      · rw [slotIndex_count h.cursors, Memory.read_write_same]
        rfl }

theorem advanceRd (h : s.Inv) (he : s.empty = false) : s.advanceRd.Inv :=
  { h with
    rdInRange := nextCursor_lt h.rdInRange
    liveWritten := fun k hk => by
      have hcount := count_advanceRd h.cursors he
      simp only [advanceRd_mem, advanceRd_rd, advanceRd_cfg, slotIndex_advanceRd]
      exact h.liveWritten (k + 1) (by omega) }

/-- A successful INIT starts a running block with an empty buffer of written slots (R123). -/
theorem initEffects (h : s.Inv) (hok : misconfig s.cfg = false) : (s.initEffects (divRaw s.cfg)).Inv := by
  obtain ⟨hsrc, -, -, htop, -, hdiv⟩ := (misconfig_eq_false_iff s.cfg).mp hok
  have hcap : 0 < s.cfg.rbN := Nat.zero_lt_of_lt h.rdInRange
  exact
    { config := h.config
      rdInRange := hcap
      wrInRange := hcap
      memWf := Memory.wf_zeros s.cfg.rbN
      slotsInRange := fun _ hc => Memory.mem_zeros hc
      liveWritten := fun k hk => by simp [State.count] at hk
      compareEqual := rfl
      divHigh := (BitVec.toNat_ofNat ..).trans_le ((Nat.mod_le _ _).trans hdiv)
      notConfigured := nofun
      running := fun _ =>
        ⟨Nat.mul_pos Nat.two_pos (Nat.pos_of_ne_zero hsrc), rfl, htop, BitVec.le_def.mpr (Nat.zero_le _), rfl, rfl, rfl, rfl, rfl, rfl⟩
      quiet := fun hne => absurd rfl hne
      halted := nofun }

end State.Inv

/-! #### Instructions and turns -/

theorem Effect.inv {i : Instr} (h : Effect i s t) (hs : s.Inv) : t.Inv := by
  cases h with
  | initHalted | initAgain | pushHalted | popHalted | popRunning | fillHalted | fillUninit | rdregReserved =>
    exact hs.raise (by decide)
  | nop | pushFull | popEmpty | rdregDone => exact hs.respond _
  | tickOff | dispatchOff => exact hs
  | initMisconfigured he => exact hs.haltEngine_raise he
  | initDone _ hm => exact (hs.initEffects hm).respond 0
  | pushDone v _ hf => exact (hs.pushed v hf).respond 1
  | popDone _ _ he => exact (hs.advanceRd he).respond _
  | fillAccepted he => exact hs.acceptFill he
  | reset => exact hs.afterReset
  | tickDone hp => exact hs.advanceCounter hp
  | dispatchEmpty => exact (hs.commitCompare 0).clearWrap
  | dispatchDone _ he => exact ((hs.advanceRd he).commitCompare _).clearWrap

theorem Turn.inv {a : Agent} (h : Turn a s t) (hs : s.Inv) : t.Inv := by
  cases h with
  | hostWaits => exact hs
  | fillDone => exact hs.finishFill
  | fillPushed _ hbusy hf => exact (hs.pushed _ hf).advanceFill (hs.eng_of_fillBusy hbusy)
  | illegal => exact (hs.withPort _).raise (by decide)
  | command _ _ _ _ he => exact he.inv (hs.withPort _)
  | tick he | dispatch he => exact he.inv hs
  | reset => exact hs.afterReset

end Sys2Proof.Machine
end

section
/-! PROOFS. The register view (spec/10_state.md R34 to R36). -/

namespace Sys2Proof.Machine

variable {n start len : Nat} {x : BitVec n}

/-- A bit of a word is a digit of its number. -/
theorem getLsbD_eq_of_digit {b : Bool} (h : x.toNat / 2 ^ start % 2 = b.toNat) : x.getLsbD start = b := by
  rw [getLsbD_eq_digit, h]
  cases b <;> rfl

/-- A field of a word is digits of its number. -/
theorem extractLsb'_eq_of_digits {y : BitVec len} (h : x.toNat / 2 ^ start % 2 ^ len = y.toNat) :
    x.extractLsb' start len = y := by
  apply BitVec.eq_of_toNat_eq
  rw [BitVec.extractLsb'_toNat, Nat.shiftRight_eq_div_pow, h]

theorem extractLsb'_eq_zero_of_digits (h : x.toNat / 2 ^ start % 2 ^ len = 0) : x.extractLsb' start len = 0 :=
  extractLsb'_eq_of_digits (h.trans BitVec.toNat_zero.symm)

/-- COUNT is the difference of the cursors modulo RB_N in the integers (R12). -/
theorem count_eq_emod (s : State) (hr : s.rd < s.cfg.rbN) :
    (s.count : Int) = ((s.wr : Int) - s.rd) % s.cfg.rbN := by
  have hle : s.rd ≤ s.wr + s.cfg.rbN := by omega
  rw [State.count, Int.natCast_mod, Nat.cast_sub hle, Nat.cast_add, add_sub_right_comm, Int.add_emod_right]

/-- The registers of R34. -/
theorem view_of_le (s : State) {r : Nibble} (hr : r.toNat ≤ 10) : s.view r = some
    (if r = 0 then s.status else if r = 1 then BitVec.ofNat 32 s.rd
      else if r = 2 then BitVec.ofNat 32 s.wr else if r = 3 then s.srcOff
      else if r = 4 then s.topReg.setWidth 32 else if r = 5 then s.div
      else if r = 6 then s.ccA.setWidth 32 else if r = 7 then s.ccB.setWidth 32
      else if r = 8 then s.ctrl else if r = 9 then BitVec.ofNat 32 s.cfg.rbN
      else s.ctr.setWidth 32) := by
  obtain rfl | rfl | rfl | rfl | rfl | rfl | rfl | rfl | rfl | rfl | rfl :
      r = 0 ∨ r = 1 ∨ r = 2 ∨ r = 3 ∨ r = 4 ∨ r = 5 ∨ r = 6 ∨ r = 7 ∨ r = 8 ∨ r = 9 ∨ r = 10 := by
    revert r
    decide
  all_goals rfl

/-- The reserved indices of R34. -/
theorem view_of_reserved (s : State) {r : Nibble} (hr : 11 ≤ r.toNat) : s.view r = none := by
  obtain rfl | rfl | rfl | rfl | rfl : r = 11 ∨ r = 12 ∨ r = 13 ∨ r = 14 ∨ r = 15 := by
    revert r
    decide
  all_goals rfl

theorem execRdreg_of_view {s : State} {r : Nibble} {d : Word} (h : s.view r = some d) :
    execRdreg r s = .next (s.respond d) := by
  simp only [execRdreg, h]

theorem execRdreg_of_reserved {s : State} {r : Nibble} (h : s.view r = none) :
    execRdreg r s = .next (s.raise .illegal) := by
  simp only [execRdreg, h]

end Sys2Proof.Machine
end

section
/-! PROOFS. The obligations of spec/10_state.md. -/

namespace Sys2Proof.Machine

/-- Settles O58: taking a turn keeps the invariant, and so does every case of the turn. -/
theorem stepKeepsInv : Obligations.StepKeepsInv :=
  fun _ _ hs h => (step_turn h).inv hs.takeTurn

/-- Settles O18: both flags are values of COUNT, which is below RB_N, and RB_N is at least 2. -/
theorem flagsFollowCount : Obligations.FlagsFollowCount := by
  intro s hcap hr hw
  have h : s.CursorsOk := ⟨hcap, hr, hw⟩
  have hlt := count_lt h
  rw [empty_iff_count h, full_iff_count h]
  omega

/-- Settles O37: each field is digits of the number that STATUS is. -/
theorem statusWordFields : Obligations.StatusWordFields := by
  intro s hr hcap
  have hcount : s.count < 65536 := (Nat.mod_lt _ (by omega)).trans_le hcap
  have hdigits := status_toNat s
  have hempty := s.empty.toNat_le
  have hfull := s.full.toNat_le
  have heng := s.eng.bits.isLt
  have hwrap := s.wrapFlag.toNat_le
  have hirq := s.irq.toNat_le
  have hfault := s.fault.bits.isLt
  refine ⟨getLsbD_eq_of_digit (b := s.empty) ?_, getLsbD_eq_of_digit (b := s.full) ?_, extractLsb'_eq_of_digits ?_,
    getLsbD_eq_of_digit ?_, getLsbD_eq_of_digit (b := s.irq) ?_, extractLsb'_eq_zero_of_digits ?_,
    extractLsb'_eq_of_digits ?_, extractLsb'_eq_zero_of_digits ?_, ?_⟩
  case refine_9 =>
    rw [← count_eq_emod s hr, BitVec.extractLsb'_toNat, Nat.shiftRight_eq_div_pow, Nat.cast_inj]
    omega
  all_goals omega

/-- Settles O51: the rule of every turn but RESET's, which clears FAULT. -/
theorem firstFaultIsKept : Obligations.FirstFaultIsKept := by
  refine ⟨rfl, fun s t h => ?_, fun a s t ha h => (agentTurn_turn h).firstFaultRule ha⟩
  cases h
  rfl

/-- Settles O53: piece by piece over everything an instruction can do. -/
theorem onlyTheirWritersWrite : Obligations.OnlyTheirWritersWrite := by
  refine ⟨fun i s t hi hx => ?_, fun s t h => ⟨fillIter_frame h, fun hf => ?_⟩, fun w s t hd h => ?_,
    fun s => ⟨_, rfl, rfl⟩⟩
  · have h := exec_effect hx
    have program := h.init_or_sameProgram hi
    refine ⟨h.of_mem_ne hi, h.of_rd_ne hi, h.of_wr_ne hi, fun hne => ?_, fun hne => ?_, fun hne => ?_,
      h.of_compare_ne hi, h.of_ctr_ne hi, h.of_wrapFlag_ne hi, (h.firstFaultRule hi).of_fault_ne, h.of_fill_ne hi⟩
    · exact program.resolve_right fun same => hne same.srcOff
    · rcases h.of_eng_ne hne with ⟨hinit, -⟩ | ⟨hreset, -⟩
      · exact hinit
      · exact absurd hreset hi
    · refine program.resolve_right fun same => ?_
      simp [same.topReg, same.div, same.invA, same.invB, same.pwmEn, same.inte, same.unmask] at hne
  · rw [fillIter_of_full h hf]
    exact ⟨rfl, rfl, rfl⟩
  · rw [runCommand_of_undecoded hd] at h
    cases h
    exact ⟨rfl, fun hne => ((firstFaultRule_raise s (by decide)).of_fault_ne hne).1⟩

/-- Settles O54: of the instructions only INIT and RESET write ENG, and a FILL iteration is none. -/
theorem engineTransitions : Obligations.EngineTransitions := by
  refine ⟨fun i s t h => (exec_effect h).of_eng_ne, fun s t h => ?_⟩
  rw [fillIter_frame h]

/-- Settles O60: read off the invariant; the cursors fit PTR_W bits because RB_N is at most 2^PTR_W. -/
theorem invGivesStatedInvariants : Obligations.InvGivesStatedInvariants := by
  intro s h
  have hfit : s.cfg.rbN ≤ 2 ^ ptrW s.cfg := Nat.le_pow_clog (by decide) _
  refine ⟨h.rdInRange, h.wrInRange, h.rdInRange.trans_le hfit, h.wrInRange.trans_le hfit,
    Nat.le_sub_one_of_lt (count_lt h.cursors), fun k hk => Option.isSome_iff_exists.mp (h.liveWritten k hk),
    fun hrun => ?_, fun hne => ?_⟩
  · obtain ⟨hoff, htop, -, hctr, -⟩ := h.running hrun
    exact ⟨hoff, htop, hctr, h.compareEqual⟩
  · obtain ⟨hen, -⟩ := h.quiet hne
    exact ⟨by simp [agentEnabled, State.dispatchEnabled, hne], hen⟩

/-- Settles O7: the turn is HOST's, and it presents the word. -/
theorem stepRunsDecodedCommand : Obligations.StepRunsDecodedCommand := by
  intro s agents w words hsched hb hbusy hport
  have hstep : step s = runCommand w { s with sched := agents, port := words } := by
    rw [step_of_sched hsched]
    exact hostTurn_of_word hb hbusy hport
  refine ⟨hstep, fun i hd => ?_, fun hd => ?_⟩
  · rw [hstep, runCommand_of_legal hd]
  · rw [hstep, runCommand_of_undecoded hd]
    rfl

/-- Settles O36: the view names a register at 0 to 10, and none above. -/
theorem rdregReadsView : Obligations.RdregReadsView :=
  ⟨fun _ s hr => execRdreg_of_view (view_of_le s hr), fun _ s hr => execRdreg_of_reserved (view_of_reserved s hr)⟩

/-- Settles O38: by evaluation, code by code. -/
theorem codesAreAsListed : Obligations.CodesAreAsListed := by
  refine ⟨by decide, by decide, fun c => ?_⟩
  cases c <;> decide

/-- Settles O39: each field is digits of the number that CTRL is. -/
theorem ctrlWordFields : Obligations.CtrlWordFields := by
  intro s
  have hdigits := ctrl_toNat s
  have hpwmEn := s.pwmEn.toNat_le
  have hinvA := s.invA.toNat_le
  have hinvB := s.invB.toNat_le
  have hinte := s.inte.toNat_le
  have hunmask := s.unmask.toNat_le
  refine ⟨getLsbD_eq_of_digit ?_, getLsbD_eq_of_digit ?_, getLsbD_eq_of_digit ?_, getLsbD_eq_of_digit ?_,
    getLsbD_eq_of_digit ?_, extractLsb'_eq_zero_of_digits ?_⟩
  all_goals omega

/-- Settles O42: State.reset evaluated. -/
theorem resetValues : Obligations.ResetValues := by
  unfold Obligations.ResetValues
  decide

/-- Settles O57: the configuration of State.reset is one of the legal ones. -/
theorem invAtReset : Obligations.InvAtReset :=
  ⟨inv_reset_of_wellFormed (c := Config.default) (by decide), fun _ => inv_reset_of_wellFormed⟩

end Sys2Proof.Machine
end

section
/-! PROOFS. The accesses to RBMEM and SRCROM (spec/20_memory.md R50, R53): an element to read has been written, and
an index outside the storage stops the access. -/

namespace Sys2Proof.Machine

variable {s : State}

/-- The slot at RD of a buffer that is not empty is listed: it is the first of the cyclic range [RD, WR) (R53). -/
theorem State.Inv.slot_rd_written (h : s.Inv) (he : s.empty = false) : ∃ b, Memory.read s.mem s.rd = some b := by
  have hpos : 0 < s.count := Nat.pos_of_ne_zero fun h0 => by simp [(empty_iff_count h.cursors).mpr h0] at he
  have hlive := h.liveWritten 0 hpos
  rw [Nat.add_zero, Nat.mod_eq_of_lt h.rdInRange] at hlive
  exact Option.isSome_iff_exists.mp hlive

/-- A listed slot holds the listed byte. -/
theorem slotValue_of_read {i : Nat} {b : Byte} (h : Memory.read s.mem i = some b) : s.slotValue i = b := by
  simp [State.slotValue, h]

/-- No source byte at an index from SRC_LEN on (R50, R52). -/
theorem readSource_of_outside {i : Nat} (h : s.cfg.srcLen ≤ i) : s.readSource i = .error (.sourceOutside i) := by
  simp [State.readSource, List.getElem?_eq_none h]

theorem execPush_of_outside (v : Byte) (hne : s.eng ≠ .faulted) (hroom : s.full = false) (hw : s.cfg.rbN ≤ s.wr) :
    execPush v s = .fault (.slotOutside s.wr) := by
  simp [execPush, hne, rbPush_of_outside v hroom hw]

theorem execPop_of_outside (hf : s.eng ≠ .faulted) (hr : s.eng ≠ .running) (he : s.empty = false)
    (hrd : s.cfg.rbN ≤ s.rd) : execPop s = .fault (.slotOutside s.rd) := by
  simp [execPop, hf, hr, rbPop_of_outside he hrd]

theorem execDispatch_of_outside (hd : s.dispatchEnabled = true) (he : s.empty = false) (hrd : s.cfg.rbN ≤ s.rd) :
    execDispatch s = .fault (.slotOutside s.rd) := by
  simp [execDispatch, hd, rbPop_of_outside he hrd]

theorem fillIter_of_outside (h : s.cfg.srcLen ≤ s.srcOff.toNat / 2) :
    fillIter s = .fault (.sourceOutside (s.srcOff.toNat / 2)) := by
  simp [fillIter, readSource_of_outside h]

end Sys2Proof.Machine
end

section
/-! PROOFS. The buffer as a queue along the turns (spec/20_memory.md R60, R62): what one turn does to the queue, and
an induction over the turns. -/

namespace Sys2Proof.Machine

variable {a : Agent} {i : Instr} {s t : State}

/-- A cursor moves when it is advanced, since there are at least two slots (R5). -/
theorem nextCursor_ne (h : s.CursorsOk) {p : Nat} (hp : p < s.cfg.rbN) : s.nextCursor p ≠ p := by
  have hcap := h.cap
  rw [nextCursor_eq hp]
  split <;> omega

/-- The low byte of POP's response is the element (spec/30_encoding.md R76). -/
theorem popData_setWidth (v : Byte) : (popData false v).setWidth 8 = v := by
  revert v
  decide

/-! #### One turn -/

/-- The ring buffer of `t` is that of `s`: the slots and the cursors. -/
structure SameRing (s t : State) : Prop where
  cfg : t.cfg = s.cfg
  mem : t.mem = s.mem
  resets : t.resets = s.resets
  rd : t.rd = s.rd
  wr : t.wr = s.wr

theorem SameRing.queue_eq (h : SameRing s t) : t.queue = s.queue := queue_congr h.cfg h.mem h.resets h.rd h.wr

/-- FIFO over one turn (R62): the element it delivered, if any, and the content left are the content before and
the element it pushed, if any. -/
def FifoStep (a : Agent) (s t : State) : Prop :=
  deliveredPiece a s t ++ t.queue = s.queue ++ pushedPiece a s t

theorem fifoStep_of_sameRing (h : SameRing s t) : FifoStep a s t := by
  simp [FifoStep, deliveredPiece, pushedPiece, h.rd, h.wr, h.queue_eq]

/-- A push into a buffer with room is one FIFO step (R100). -/
theorem fifoStep_of_pushed {v : Byte} (hs : s.CursorsOk) (hroom : s.full = false) (h : SameRing (s.pushed v) t) :
    FifoStep a s t := by
  have hwr : t.wr ≠ s.wr := by
    rw [h.wr]
    exact nextCursor_ne hs hs.wr
  have hrd : t.rd = s.rd := h.rd
  have hslot : t.slotValue s.wr = v := slotValue_of_read (by rw [h.mem, pushed_mem, Memory.read_write_same])
  simp [FifoStep, deliveredPiece, pushedPiece, hrd, hwr, hslot, h.queue_eq, queue_pushed v hs hroom]

/-- While RUNNING the element delivered is the compare value (R172). -/
theorem deliveredPiece_of_running (hrun : s.eng = .running) (hrd : t.rd ≠ s.rd) :
    deliveredPiece a s t = [t.ccA.setWidth 8] := by
  simp [deliveredPiece, hrun, hrd]

/-- Outside RUNNING the element delivered is the low byte of the last response (R101). -/
theorem deliveredPiece_of_not_running {rs : List Response} {d : Word} (hr : s.eng ≠ .running) (hrd : t.rd ≠ s.rd)
    (hresp : t.responses = rs ++ [Response.success d]) : deliveredPiece a s t = [d.setWidth 8] := by
  simp [deliveredPiece, hr, hrd, hresp, Response.success]

/-- A delivery is one FIFO step if the element delivered is the one at RD (R101, R172). -/
theorem fifoStep_of_delivered (hs : s.CursorsOk) (he : s.empty = false) (h : SameRing s.advanceRd t)
    (hv : deliveredPiece a s t = [s.slotValue s.rd]) : FifoStep a s t := by
  have hwr : t.wr = s.wr := h.wr
  simp [FifoStep, pushedPiece, hwr, hv, h.queue_eq, queue_advanceRd hs he]

theorem eng_of_dispatchEnabled (h : s.dispatchEnabled = true) : s.eng = .running := by
  obtain ⟨hrun, -⟩ := Bool.and_eq_true_iff.mp h
  exact beq_iff_eq.mp hrun

/-- Every instruction but RESET and a successful INIT is one FIFO step. -/
theorem Effect.fifoStep (h : Effect i s t) (hs : s.CursorsOk) (hi : i ≠ .reset)
    (hinit : ¬ (s.eng = .uninit ∧ t.eng = .running)) : FifoStep a s t := by
  cases h with
  | initDone he => exact absurd ⟨he, rfl⟩ hinit
  | reset => exact absurd rfl hi
  | pushDone v _ hf => exact fifoStep_of_pushed hs hf ⟨rfl, rfl, rfl, rfl, rfl⟩
  | popDone _ hr he =>
    refine fifoStep_of_delivered hs he ⟨rfl, rfl, rfl, rfl, rfl⟩ ?_
    rw [deliveredPiece_of_not_running hr (nextCursor_ne hs hs.rd) rfl, popData_setWidth]
  | dispatchDone hd he =>
    refine fifoStep_of_delivered hs he ⟨rfl, rfl, rfl, rfl, rfl⟩ ?_
    rw [deliveredPiece_of_running (eng_of_dispatchEnabled hd) (nextCursor_ne hs hs.rd)]
    simp
  | tickDone => exact fifoStep_of_sameRing (by constructor <;> simp)
  | _ => exact fifoStep_of_sameRing ⟨rfl, rfl, rfl, rfl, rfl⟩

/-- Every turn short of RESET and a successful INIT is one FIFO step. -/
theorem Turn.fifoStep (h : Turn a s t) (hs : s.CursorsOk) (ha : a ≠ .resetLogic)
    (hinit : ¬ (s.eng = .uninit ∧ t.eng = .running)) : FifoStep a s t := by
  cases h with
  | hostWaits | fillDone | illegal => exact fifoStep_of_sameRing ⟨rfl, rfl, rfl, rfl, rfl⟩
  | fillPushed _ _ hf => exact fifoStep_of_pushed hs hf ⟨rfl, rfl, rfl, rfl, rfl⟩
  | command _ _ _ hd he =>
    exact he.fifoStep (a := .host) ⟨hs.cap, hs.rd, hs.wr⟩ (ne_reset_of_decodeCommand hd) hinit
  | tick he | dispatch he => exact he.fifoStep hs (by decide) hinit
  | reset => exact absurd rfl ha

/-! #### Runs of turns -/

/-- Turns that all answer are the first turn and the turns after it. -/
theorem runTurns_cons {rest : List Agent} (h : runTurns (a :: rest) s = .next t) :
    ∃ u, agentTurn a s = .next u ∧ runTurns rest u = .next t := by
  unfold runTurns at h
  split at h
  · next u hu => exact ⟨u, hu, h⟩
  · cases h
  · cases h

/-- What is collected along turns is the first turn's piece and then what is collected along the rest. -/
theorem alongTurns_cons {α : Type} (piece : Agent → State → State → List α) (rest : List Agent)
    {u : State} (h : agentTurn a s = .next u) :
    alongTurns piece (a :: rest) s = piece a s u ++ alongTurns piece rest u := by
  simp [alongTurns, h]

/-- No instruction but RESET leads to UNINIT from another ENG (R24). -/
theorem Effect.eng_uninit_of (h : Effect i s t) (hi : i ≠ .reset) (ht : t.eng = .uninit) : s.eng = .uninit := by
  by_contra hne
  rcases h.of_eng_ne (by simpa [ht] using Ne.symm hne) with ⟨-, hu, -⟩ | ⟨hr, -⟩
  · exact hne hu
  · exact hi hr

/-- Without RESET no turn leads to UNINIT from another ENG (R24). -/
theorem Turn.eng_uninit_of (h : Turn a s t) (ha : a ≠ .resetLogic) (ht : t.eng = .uninit) : s.eng = .uninit := by
  cases h with
  | hostWaits | fillDone | fillPushed | illegal => exact ht
  | command _ _ _ hd he => exact he.eng_uninit_of (ne_reset_of_decodeCommand hd) ht
  | tick he | dispatch he => exact he.eng_uninit_of (by decide) ht
  | reset => exact absurd rfl ha

/-- Without RESET a running block runs on (R24). -/
theorem runTurns_ticking {agents : List Agent} (h : runTurns agents s = .next t) (hreset : .resetLogic ∉ agents)
    (hs : s.Ticking) : t.Ticking := by
  induction agents generalizing s with
  | nil =>
    cases h
    exact hs
  | cons a rest ih =>
    have ha : a ≠ .resetLogic := (List.ne_of_not_mem_cons hreset).symm
    have hrest : .resetLogic ∉ rest := List.not_mem_of_not_mem_cons hreset
    obtain ⟨u, hu, hrun⟩ := runTurns_cons h
    exact ih hrun hrest ((agentTurn_turn hu).ticking ha hs)

end Sys2Proof.Machine
end

section
/-! PROOFS. The obligations of spec/20_memory.md. -/

namespace Sys2Proof.Machine

/-- Settles O22: by induction on the turns, each of which is one FIFO step. A running block runs on and UNINIT is not
entered again, so neither the first turn nor the rest holds a successful INIT. -/
theorem deliveredInOrderPushed : Obligations.DeliveredInOrderPushed := by
  intro agents s t hs hreset h hinit
  induction agents generalizing s with
  | nil =>
    cases h
    simp [alongTurns]
  | cons a rest ih =>
    have ha : a ≠ .resetLogic := (List.ne_of_not_mem_cons hreset).symm
    have hrest : .resetLogic ∉ rest := List.not_mem_of_not_mem_cons hreset
    obtain ⟨u, hu, hrun⟩ := runTurns_cons h
    have hturn := agentTurn_turn hu
    have hinv : u.Inv := hturn.inv hs
    have hfirst : ¬ (s.eng = .uninit ∧ u.eng = .running) := fun ⟨hsu, hur⟩ =>
      hinit ⟨hsu, (runTurns_ticking hrun hrest (hinv.ticking hur)).eng⟩
    have hlater : ¬ (u.eng = .uninit ∧ t.eng = .running) := fun ⟨huu, htr⟩ =>
      hinit ⟨hturn.eng_uninit_of ha huu, htr⟩
    have hstep : FifoStep a s u := hturn.fifoStep hs.cursors ha hfirst
    calc alongTurns deliveredPiece (a :: rest) s ++ t.queue
        = deliveredPiece a s u ++ (alongTurns deliveredPiece rest u ++ t.queue) := by
          rw [alongTurns_cons _ _ hu, List.append_assoc]
      _ = deliveredPiece a s u ++ u.queue ++ alongTurns pushedPiece rest u := by
          rw [ih u hinv hrest hrun hlater, List.append_assoc]
      _ = s.queue ++ alongTurns pushedPiece (a :: rest) s := by
          rw [hstep, alongTurns_cons _ _ hu, List.append_assoc]

/-- Settles O23: the slot at RD is listed, and a listed slot holds the listed byte. -/
theorem readSlotsWereWritten : Obligations.ReadSlotsWereWritten := by
  intro s hs he
  obtain ⟨b, hb⟩ := hs.slot_rd_written he
  exact ⟨b, hb, slotValue_of_read hb⟩

/-- Settles O19: each access stops at the shared operation that makes it. -/
theorem accessOutsideStorageStops : Obligations.AccessOutsideStorageStops :=
  ⟨fun v _ => execPush_of_outside v, fun _ => execPop_of_outside, fun _ => execDispatch_of_outside,
    fun _ => fillIter_of_outside⟩

end Sys2Proof.Machine
end

section
/-! PROOFS. The codec (spec/30_encoding.md R71 to R75, R81): what the decoder answers over the number a command word
is, that it inverts the encoder at both ports, and which encodings are illegal words. -/

namespace Sys2Proof

/-! #### The command decoder over the number the word is -/

theorem toOption_eq_some_iff {d : Except Illegal Instr} {i : Instr} : d.toOption = some i ↔ d = .ok i := by
  cases d <;> simp [Except.toOption]

theorem eq_zero_iff_toNat {n : Nat} (x : BitVec n) : x = 0 ↔ x.toNat = 0 := by
  rw [BitVec.toNat_eq, BitVec.ofNat_eq_ofNat, BitVec.toNat_zero]

theorem cmdImm_eq_ofNat (w : Half) : cmdImm w = BitVec.ofNat 8 (w.toNat % 256) := by
  rw [← cmdImm_toNat, BitVec.ofNat_toNat, BitVec.setWidth_eq]

/-- A command without an operand decodes if its IMM8 is 0 (R73). -/
theorem decodeNoOperand_toOption (w : Half) (i : Instr) :
    (decodeNoOperand (cmdImm w) i).toOption = if w.toNat % 256 = 0 then some i else none := by
  unfold decodeNoOperand
  simp only [eq_zero_iff_toNat, cmdImm_toNat]
  split <;> rfl

/-- RDREG decodes if IMM8[7:4] is 0 (R73). -/
theorem decodeRegister_toOption (w : Half) : (decodeRegister (cmdImm w)).toOption =
    if w.toNat % 256 / 16 = 0 then some (.rdreg (BitVec.ofNat 4 (w.toNat % 16))) else none := by
  have hhigh : (cmdImm w).extractLsb' 4 4 = 0 ↔ w.toNat % 256 / 16 = 0 := by
    rw [eq_zero_iff_toNat, BitVec.extractLsb'_toNat, cmdImm_toNat, Nat.shiftRight_eq_div_pow]
    omega
  have hindex : (cmdImm w).extractLsb' 0 4 = BitVec.ofNat 4 (w.toNat % 16) := by
    apply BitVec.eq_of_toNat_eq
    rw [BitVec.extractLsb'_toNat, cmdImm_toNat, BitVec.toNat_ofNat, Nat.shiftRight_zero]
    omega
  unfold decodeRegister
  simp only [hhigh, hindex]
  split <;> rfl

/-- R81's case analysis: RSV first, then OPC at 0 to 5 and above. -/
theorem decodeCommand_toOption (w : Half) : (decodeCommand w).toOption =
    if w.toNat / 256 % 16 ≠ 0 then none
    else if w.toNat / 4096 = 0 then (if w.toNat % 256 = 0 then some .nop else none)
    else if w.toNat / 4096 = 1 then (if w.toNat % 256 = 0 then some .init else none)
    else if w.toNat / 4096 = 2 then some (.push (BitVec.ofNat 8 (w.toNat % 256)))
    else if w.toNat / 4096 = 3 then (if w.toNat % 256 = 0 then some .pop else none)
    else if w.toNat / 4096 = 4 then (if w.toNat % 256 = 0 then some .fill else none)
    else if w.toNat / 4096 = 5 then
      (if w.toNat % 256 / 16 = 0 then some (.rdreg (BitVec.ofNat 4 (w.toNat % 16))) else none)
    else none := by
  have hrsv : w.toNat / 256 % 16 ≠ 0 ↔ cmdRsv w ≠ 0 := by
    rw [← cmdRsv_toNat, Ne, Ne, eq_zero_iff_toNat]
  simp only [hrsv, ← cmdOpc_toNat, ← decodeNoOperand_toOption, ← decodeRegister_toOption, ← cmdImm_eq_ofNat]
  unfold decodeCommand
  split
  · rfl
  · generalize (cmdOpc w).toNat = opc
    obtain _ | _ | _ | _ | _ | _ | opc := opc
    all_goals rfl

/-! #### The decoder inverts the encoder -/

theorem commandWord_eq_iff (opc : Nibble) (imm : Byte) (w : Half) :
    commandWord opc imm = w ↔ w.toNat = opc.toNat * 4096 + imm.toNat := by
  rw [BitVec.toNat_eq, commandWord_toNat, eq_comm]

/-- The number of a command's word (R74); the host issues no internal step. -/
def Instr.commandNumber : Instr → Option Nat
  | .nop => some 0x0000
  | .init => some 0x1000
  | .push v => some (0x2000 + v.toNat)
  | .pop => some 0x3000
  | .fill => some 0x4000
  | .rdreg r => some (0x5000 + r.toNat)
  | .reset | .tick | .dispatch => none

theorem zero_append_toNat (r : Nibble) : (0#4 ++ r).toNat = r.toNat := by
  rw [Machine.append_toNat]
  simp

theorem encode_eq_command_iff {i : Instr} {w : Half} :
    encode i = .command w ↔ i.commandNumber = some w.toNat := by
  cases i <;> simp [encode, Instr.commandNumber, commandWord_eq_iff, zero_append_toNat, eq_comm (b := w.toNat)]

theorem commandNumber_of_decodeCommand {w : Half} {i : Instr} (h : decodeCommand w = .ok i) :
    i.commandNumber = some w.toNat := by
  have hw := w.isLt
  rw [← toOption_eq_some_iff, decodeCommand_toOption] at h
  split_ifs at h
  all_goals
    cases h
    simp only [Instr.commandNumber, BitVec.toNat_ofNat, Option.some.injEq]
    omega

theorem decodeCommand_of_commandNumber {w : Half} {i : Instr} (h : i.commandNumber = some w.toNat) :
    decodeCommand w = .ok i := by
  rw [← toOption_eq_some_iff, decodeCommand_toOption]
  cases i with
  | nop | init | pop | fill => simp [← Option.some.inj h]
  | push v =>
    have hv := v.isLt
    have hw : w.toNat = 0x2000 + v.toNat := (Option.some.inj h).symm
    have hrsv : w.toNat / 256 % 16 = 0 := by omega
    have hopc : w.toNat / 4096 = 2 := by omega
    have himm : w.toNat % 256 = v.toNat := by omega
    simp [hrsv, hopc, himm]
  | rdreg r =>
    have hr := r.isLt
    have hw : w.toNat = 0x5000 + r.toNat := (Option.some.inj h).symm
    have hrsv : w.toNat / 256 % 16 = 0 := by omega
    have hopc : w.toNat / 4096 = 5 := by omega
    have hhigh : w.toNat % 256 / 16 = 0 := by omega
    have hindex : w.toNat % 16 = r.toNat := by omega
    simp [hrsv, hopc, hhigh, hindex]
  | reset | tick | dispatch => cases h

/-- At the command port the decoder inverts the encoder. -/
theorem decodeCommand_eq_ok_iff {w : Half} {i : Instr} : decodeCommand w = .ok i ↔ encode i = .command w :=
  ⟨fun h => encode_eq_command_iff.mpr (commandNumber_of_decodeCommand h),
    fun h => decodeCommand_of_commandNumber (encode_eq_command_iff.mp h)⟩

/-- For the step identifiers the decoder inverts the encoder (R72). -/
theorem decodeStepId_eq_ok_iff {evt : Nibble} {i : Instr} : decodeStepId evt = .ok i ↔ encode i = .stepId evt := by
  constructor
  · intro h
    unfold decodeStepId at h
    split at h <;> cases h
    all_goals exact congrArg Encoded.stepId (BitVec.eq_of_toNat_eq ‹evt.toNat = _›.symm)
  · intro h
    cases i <;> cases h <;> rfl

/-- Decoding inverts encoding at either port. -/
theorem decode_eq_ok_iff {e : Encoded} {i : Instr} : decode e = .ok i ↔ encode i = e := by
  cases e with
  | command w => exact decodeCommand_eq_ok_iff
  | stepId evt => exact decodeStepId_eq_ok_iff

/-! #### The illegal words -/

/-- The encoding of a command is an illegal word when the assembler does not emit it: RDREG of 11 to 15 (R75, R79). -/
theorem illegalWord_iff_of_encode {i : Instr} {w : Half} (h : encode i = .command w) :
    Machine.IllegalWord w ↔ i.Assembles = false := by
  have hnum := encode_eq_command_iff.mp h
  cases i with
  | nop | init | pop | fill =>
    simp [Machine.IllegalWord, Instr.Assembles, Instr.isCommand, ← Option.some.inj hnum]
  | push v =>
    have hv := v.isLt
    have hw : w.toNat = 0x2000 + v.toNat := (Option.some.inj hnum).symm
    simp only [Instr.Assembles, Instr.isCommand, Machine.IllegalWord, Bool.true_eq_false, iff_false]
    omega
  | rdreg r =>
    have hr := r.isLt
    have hw : w.toNat = 0x5000 + r.toNat := (Option.some.inj hnum).symm
    simp only [Instr.Assembles, Machine.IllegalWord, decide_eq_false_iff_not]
    omega
  | reset | tick | dispatch => cases h

/-- R75 lists every word that does not decode. -/
theorem illegalWord_of_undecoded {w : Half} (hd : (decodeCommand w).toOption = none) : Machine.IllegalWord w := by
  have hw := w.isLt
  rw [decodeCommand_toOption] at hd
  unfold Machine.IllegalWord
  split_ifs at hd
  all_goals omega

/-- A command that the assembler does not emit is RDREG of 11 to 15 (R79). -/
theorem eq_rdreg_of_not_assembles {i : Instr} (hc : i.isCommand = true) (ha : i.Assembles = false) :
    ∃ r : Nibble, i = .rdreg r ∧ 11 ≤ r.toNat := by
  cases i with
  | rdreg r => exact ⟨r, rfl, Nat.lt_of_not_le (of_decide_eq_false ha)⟩
  | nop | init | push | pop | fill => cases ha
  | reset | tick | dispatch => cases hc

end Sys2Proof
end

section
/-! PROOFS. What the assembler emits (spec/30_encoding.md R79, R80). -/

namespace Sys2Proof.Machine

/-- The word is that of an instruction the assembler emits (R79). -/
def Emitted (w : Half) : Prop := ∃ i : Instr, i.Assembles = true ∧ encode i = .command w

theorem Emitted.legal {w : Half} (h : Emitted w) : ¬ IllegalWord w := by
  obtain ⟨i, ha, he⟩ := h
  simp [illegalWord_iff_of_encode he, ha]

theorem emitted_of_wordOf {i : Instr} {w : Half} (ha : i.Assembles = true) (h : wordOf i = some w) : Emitted w := by
  refine ⟨i, ha, ?_⟩
  unfold wordOf at h
  split at h
  · next he => cases h; exact he
  · cases h

theorem emitted_of_asmPush {v : Nat} {w : Half} (h : asmPush v = some w) : Emitted w := by
  obtain ⟨-, hw⟩ := Option.ite_none_right_eq_some.mp h
  exact emitted_of_wordOf rfl hw

theorem emitted_of_single {word : Option Half} {ws : List Half} (hws : word.map (fun w => [w]) = some ws)
    (h : ∀ w, word = some w → Emitted w) : ∀ w ∈ ws, Emitted w := by
  obtain ⟨w, hw, rfl⟩ := Option.map_eq_some_iff.mp hws
  simpa using h w hw

/-- PUSHN, value by value (R80). -/
theorem emitted_of_pushn {vs : List Nat} {ws : List Half} (h : vs.mapM asmPush = some ws) :
    ∀ w ∈ ws, Emitted w := by
  induction vs generalizing ws with
  | nil =>
    cases h
    nofun
  | cons v vs ih =>
    rw [List.mapM_cons] at h
    obtain ⟨w, hw, h⟩ := Option.bind_eq_some_iff.mp h
    obtain ⟨ws', hws, h⟩ := Option.bind_eq_some_iff.mp h
    cases h
    exact List.forall_mem_cons.mpr ⟨emitted_of_asmPush hw, ih hws⟩

/-- Every word of a line is that of an instruction the assembler emits. -/
theorem emitted_of_assemble {line : AsmLine} {ws : List Half} (h : assemble line = some ws) :
    ∀ w ∈ ws, Emitted w := by
  cases line with
  | nop | init | pop | fill | status =>
    unfold assemble at h
    exact emitted_of_single h fun _ => emitted_of_wordOf rfl
  | push v => exact emitted_of_single h fun _ => emitted_of_asmPush
  | rdreg r =>
    obtain ⟨hr, hws⟩ := Option.ite_none_right_eq_some.mp h
    have ha : (Instr.rdreg (BitVec.ofNat 4 r)).Assembles = true := by
      simp only [Instr.Assembles, BitVec.toNat_ofNat, decide_eq_true_eq]
      omega
    exact emitted_of_single hws fun _ => emitted_of_wordOf ha
  | pushn vs => exact emitted_of_pushn h
  | step a =>
    cases h
    nofun

end Sys2Proof.Machine
end

section
/-! PROOFS. When a step responds (spec/30_encoding.md R76, R77, spec/41_engine.md R130). -/

namespace Sys2Proof.Machine

variable {i : Instr} {s t : State}

/-- A command responds once, but for a FILL that is accepted, which does not respond yet (R77, R130). -/
theorem Effect.command_responds (h : Effect i s t) (hc : i.isCommand = true) :
    (i = .fill ∧ s.eng = .running ∧ t.fillBusy = true ∧ t.responses = s.responses) ∨
      (¬ (i = .fill ∧ s.eng = .running) ∧ ∃ r, t.responses = s.responses ++ [r]) := by
  cases h with
  | fillAccepted he => exact .inl ⟨rfl, he, rfl, rfl⟩
  | fillHalted he => exact .inr ⟨by simp [he], _, rfl⟩
  | fillUninit _ hr => exact .inr ⟨fun ⟨_, hrun⟩ => hr hrun, _, rfl⟩
  | reset | tickOff | tickDone | dispatchOff | dispatchEmpty | dispatchDone => cases hc
  | _ => exact .inr ⟨nofun, _, rfl⟩

/-- An internal step does not respond (R77). -/
theorem Effect.internal_silent (h : Effect i s t) (hc : i.isCommand = false) : t.responses = s.responses := by
  cases h with
  | reset | tickOff | dispatchOff | dispatchEmpty | dispatchDone => rfl
  | tickDone => exact advanceCounter_responses s
  | _ => cases hc

end Sys2Proof.Machine
end

section
/-! PROOFS. The obligations of spec/30_encoding.md. -/

namespace Sys2Proof.Machine

/-- Settles O1: at both ports the decoder inverts the encoder. -/
theorem decodeOfEncode : Obligations.DecodeOfEncode := fun _ => decode_eq_ok_iff.mpr rfl

/-- Settles O2: at both ports the decoder inverts the encoder. -/
theorem encodeOfDecode : Obligations.EncodeOfDecode := fun _ _ => decode_eq_ok_iff.mp

/-- Settles O3: the case analysis, and the two ways to E_ILLEGAL: a word that does not decode, and a reserved
index of the register view. -/
theorem commandDecoderIsTotal : Obligations.CommandDecoderIsTotal :=
  ⟨decodeCommand_toOption, fun _ _ => runCommand_of_undecoded,
    fun _ s hr => execRdreg_of_reserved (view_of_reserved s hr)⟩

/-- Settles O4: an illegal word does not decode, or it is RDREG of a reserved index; any other word decodes to a
command that the assembler emits. -/
theorem illegalWordsOnlyFault : Obligations.IllegalWordsOnlyFault := by
  intro w
  have hreserved : ∀ i, IllegalWord w → decodeCommand w = .ok i →
      ∃ r : Nibble, i = .rdreg r ∧ 11 ≤ r.toNat :=
    fun i hw hd => eq_rdreg_of_not_assembles (isCommand_of_decodeCommand hd)
      ((illegalWord_iff_of_encode (decodeCommand_eq_ok_iff.mp hd)).mp hw)
  refine ⟨fun hw s => ?_, hreserved, fun hw => ?_⟩
  · cases hd : decodeCommand w with
    | error why => exact runCommand_of_illegal hd
    | ok i =>
      obtain ⟨r, rfl, hr⟩ := hreserved i hw hd
      rw [runCommand_of_legal hd]
      exact execRdreg_of_reserved (view_of_reserved s hr)
  · cases hd : decodeCommand w with
    | error why => exact absurd (illegalWord_of_undecoded (by rw [hd]; rfl)) hw
    | ok i =>
      rw [illegalWord_iff_of_encode (decodeCommand_eq_ok_iff.mp hd), Bool.not_eq_false] at hw
      exact ⟨i, rfl, isCommand_of_decodeCommand hd, hw⟩

/-- Settles O6: each word is that of an instruction the assembler emits, and such a word is legal. -/
theorem assemblerEmitsLegalWords : Obligations.AssemblerEmitsLegalWords :=
  fun _ _ h w hw => (emitted_of_assemble h w hw).legal

/-- Settles O52: instruction by instruction; a FILL iteration responds when it finds the buffer full. -/
theorem eachCommandRespondsOnce : Obligations.EachCommandRespondsOnce := by
  refine ⟨fun w s t h => ?_, fun s t h => ?_, fun i s t hi h => ?_⟩
  · rcases runCommand_cases h with ⟨i, hd, hx⟩ | ⟨⟨why, hd⟩, rfl⟩
    · rw [hd, Except.ok.injEq]
      exact (exec_effect hx).command_responds (isCommand_of_decodeCommand hd)
    · exact .inr ⟨by simp [hd], _, rfl⟩
  · rcases fillIter_cases h with ⟨hf, rfl⟩ | ⟨hf, -, b, -, rfl⟩
    · exact .inr ⟨hf, rfl, rfl⟩
    · exact .inl ⟨hf, rfl, rfl⟩
  · have hc : i.isCommand = false := by rcases hi with rfl | rfl | rfl <;> rfl
    exact (exec_effect h).internal_silent hc

/-- Settles O5: by evaluation, word by word. -/
theorem sampleWordsDecode : Obligations.SampleWordsDecode := by
  unfold Obligations.SampleWordsDecode
  decide

/-- Settles O8: a step is the turn of the agent that moves next, and the turn runs its instruction. -/
theorem stepRunsInternalSteps : Obligations.StepRunsInternalSteps :=
  fun _ _ => ⟨step_of_sched, step_of_sched, step_of_sched⟩

end Sys2Proof.Machine
end

section
/-! PROOFS. What PUSH, POP, DISPATCH, INIT and FILL answer under each condition of spec/40_ring_buffer.md and of
spec/60_exceptions.md R204, item 3. -/

namespace Sys2Proof.Machine

variable {s : State}

theorem full_eq_false_iff : s.full = false ↔ s.nextCursor s.wr ≠ s.rd := by rw [Bool.eq_false_iff, Ne, full_iff]

theorem empty_eq_false_iff : s.empty = false ↔ s.rd ≠ s.wr := by rw [Bool.eq_false_iff, Ne, empty_iff]

/-- A delivering POP responds with the element, zero-extended (R76). -/
theorem popData_delivered (v : Byte) : popData false v = v.setWidth 32 := by
  revert v
  decide

theorem exec_push_of_full (v : Byte) (hne : s.eng ≠ .faulted) (hf : s.full = true) :
    exec (.push v) s = .next (s.respond 0) := by
  simp [exec, execPush, hne, rbPush_of_full v hf, pushData, bit]

theorem exec_push_of_room (v : Byte) (hne : s.eng ≠ .faulted) (hroom : s.full = false) (hw : s.wr < s.cfg.rbN) :
    exec (.push v) s = .next ((s.pushed v).respond 1) := by
  simp [exec, execPush, hne, rbPush_of_room v hroom hw, pushData, bit]

theorem exec_pop_of_running (hr : s.eng = .running) : exec .pop s = .next (s.raise .spsc) := by
  simp [exec, execPop, hr]

theorem exec_pop_of_empty (hf : s.eng ≠ .faulted) (hr : s.eng ≠ .running) (he : s.empty = true) :
    exec .pop s = .next (s.respond 0x100) := by
  simp [exec, execPop, hf, hr, rbPop_of_empty he, popData, bit, elemDefault]

theorem exec_pop_of_element (hf : s.eng ≠ .faulted) (hr : s.eng ≠ .running) (he : s.empty = false)
    (hrd : s.rd < s.cfg.rbN) : exec .pop s = .next (s.advanceRd.respond ((s.slotValue s.rd).setWidth 32)) := by
  simp [exec, execPop, hf, hr, rbPop_of_element he hrd, popData_delivered]

theorem exec_dispatch_of_element (hd : s.dispatchEnabled = true) (he : s.empty = false) (hrd : s.rd < s.cfg.rbN) :
    exec .dispatch s = .next (s.advanceRd.commitCompare ((s.slotValue s.rd).setWidth 16)).clearWrap := by
  simp [exec, execDispatch, hd, rbPop_of_element he hrd]

theorem exec_init_of_not_uninit (hf : s.eng ≠ .faulted) (hu : s.eng ≠ .uninit) :
    exec .init s = .next (s.raise .reinit) := by
  simp [exec, execInit, hf, hu]

theorem exec_fill_of_not_running (hf : s.eng ≠ .faulted) (hr : s.eng ≠ .running) :
    exec .fill s = .next (s.raise .uninit) := by
  simp [exec, execFill, hf, hr]

end Sys2Proof.Machine
end

section
/-! PROOFS. The flags and COUNT after a push and after a delivery (spec/10_state.md R22), in any state with the ring
buffer that the push or the delivery leaves. -/

namespace Sys2Proof.Machine

variable {s t : State}

theorem State.CursorsOk.pushed (h : s.CursorsOk) (v : Byte) : (s.pushed v).CursorsOk :=
  ⟨h.cap, h.rd, nextCursor_lt h.wr⟩

theorem State.CursorsOk.advanceRd (h : s.CursorsOk) : s.advanceRd.CursorsOk := ⟨h.cap, nextCursor_lt h.rd, h.wr⟩

theorem State.CursorsOk.respond (h : s.CursorsOk) (d : Word) : (s.respond d).CursorsOk := ⟨h.cap, h.rd, h.wr⟩

theorem SameRing.cursors (h : SameRing s t) (hs : s.CursorsOk) : t.CursorsOk where
  cap := by rw [h.cfg]; exact hs.cap
  rd := by rw [h.rd, h.cfg]; exact hs.rd
  wr := by rw [h.wr, h.cfg]; exact hs.wr

theorem SameRing.count_eq (h : SameRing s t) : t.count = s.count := by
  simp [State.count, h.cfg, h.rd, h.wr]

/-- After a push with room the buffer is not empty, and it is full at RB_N - 1 elements (R100). -/
theorem flags_of_pushed {v : Byte} (h : SameRing (s.pushed v) t) (hs : s.CursorsOk) (hroom : s.full = false) :
    t.empty = false ∧ t.count = s.count + 1 ∧ (t.full = true ↔ t.count = s.cfg.rbN - 1) := by
  have ht : t.CursorsOk := h.cursors (hs.pushed v)
  have hcount : t.count = s.count + 1 := by rw [h.count_eq, count_pushed v hs hroom]
  have hcap := hs.cap
  refine ⟨?_, hcount, ?_⟩
  · rw [Bool.eq_false_iff, Ne, empty_iff_count ht]
    omega
  · rw [full_iff_count ht, h.cfg, pushed_cfg]
    omega

/-- After a delivery the buffer is not full, and it is empty when nothing is left (R101, R172). -/
theorem flags_of_delivered (h : SameRing s.advanceRd t) (hs : s.CursorsOk) (he : s.empty = false) :
    t.full = false ∧ t.count + 1 = s.count ∧ (t.empty = true ↔ t.count = 0) := by
  have ht : t.CursorsOk := h.cursors hs.advanceRd
  have hcount : t.count + 1 = s.count := by rw [h.count_eq, count_advanceRd hs he]
  have hlt := count_lt hs
  refine ⟨?_, hcount, empty_iff_count ht⟩
  rw [Bool.eq_false_iff, Ne, full_iff_count ht, h.cfg, advanceRd_cfg]
  omega

end Sys2Proof.Machine
end

section
/-! PROOFS. Sequences of PUSH and POP over the buffer as a queue (spec/40_ring_buffer.md R102): what they leave in the
queue and what they respond. -/

namespace Sys2Proof.Machine

variable {s t u : State} {is js : List Instr} {q q' : List Byte} {rs rs' : List Response}

theorem execAll_cons {i : Instr} (h : exec i s = .next t) : execAll (i :: is) s = execAll is t := by
  simp [execAll, h]

theorem execAll_append (h : execAll is s = .next t) : execAll (is ++ js) s = execAll js t := by
  induction is generalizing s with
  | nil =>
    cases h
    rfl
  | cons i is ih =>
    rw [execAll] at h
    split at h
    · next u hu =>
      rw [List.cons_append, execAll_cons hu]
      exact ih h
    · cases h
    · cases h

theorem length_queue (s : State) : s.queue.length = s.count := by simp [State.queue]

theorem empty_iff_queue (h : s.CursorsOk) : s.empty = true ↔ s.queue = [] := by
  rw [empty_iff_count h, ← length_queue, List.length_eq_zero_iff]

theorem full_iff_queue (h : s.CursorsOk) : s.full = true ↔ s.queue.length + 1 = s.cfg.rbN := by
  rw [full_iff_count h, length_queue]

/-- The instructions `is` take `s` to `t`, where the queue is `q`, and respond `rs`; ENG and the configuration stay, and
the cursors are slot indices. -/
structure QueueRun (is : List Instr) (s t : State) (q : List Byte) (rs : List Response) : Prop where
  run : execAll is s = .next t
  cfg : t.cfg = s.cfg
  eng : t.eng = s.eng
  cursors : t.CursorsOk
  queue : t.queue = q
  responses : t.responses = s.responses ++ rs

theorem QueueRun.nil (hs : s.CursorsOk) : QueueRun [] s s s.queue [] :=
  ⟨rfl, rfl, rfl, hs, rfl, (List.append_nil _).symm⟩

/-- One run after the other. -/
theorem QueueRun.append (h : QueueRun is s t q rs) (h' : QueueRun js t u q' rs') :
    QueueRun (is ++ js) s u q' (rs ++ rs') where
  run := (execAll_append h.run).trans h'.run
  cfg := h'.cfg.trans h.cfg
  eng := h'.eng.trans h.eng
  cursors := h'.cursors
  queue := h'.queue
  responses := by rw [h'.responses, h.responses, List.append_assoc]

/-- A PUSH with room appends its element (R100). -/
theorem queueRun_push (v : Byte) (hs : s.CursorsOk) (hne : s.eng ≠ .faulted) (hroom : s.full = false) :
    QueueRun [.push v] s ((s.pushed v).respond 1) (s.queue ++ [v]) [.success 1] where
  run := execAll_cons (exec_push_of_room v hne hroom hs.wr)
  cfg := rfl
  eng := rfl
  cursors := (hs.pushed v).respond 1
  queue := queue_pushed v hs hroom
  responses := rfl

/-- A PUSH into a full buffer is refused (R100). -/
theorem queueRun_push_full (v : Byte) (hs : s.CursorsOk) (hne : s.eng ≠ .faulted) (hf : s.full = true) :
    QueueRun [.push v] s (s.respond 0) s.queue [.success 0] :=
  ⟨execAll_cons (exec_push_of_full v hne hf), rfl, rfl, hs.respond 0, rfl, rfl⟩

/-- A POP of an element takes the head of the queue and responds with it (R101). -/
theorem queueRun_pop (hs : s.CursorsOk) (hf : s.eng ≠ .faulted) (hr : s.eng ≠ .running) {v : Byte}
    (hq : s.queue = v :: q) : ∃ t, QueueRun [.pop] s t q [.success (v.setWidth 32)] := by
  have he : s.empty = false := by simp [Bool.eq_false_iff, empty_iff_queue hs, hq]
  obtain ⟨rfl, rfl⟩ := List.cons_eq_cons.mp ((queue_advanceRd hs he).symm.trans hq)
  exact ⟨_, execAll_cons (exec_pop_of_element hf hr he hs.rd), rfl, rfl, hs.advanceRd.respond _, rfl, rfl⟩

/-- A POP of an empty buffer underruns (R101). -/
theorem queueRun_pop_empty (hs : s.CursorsOk) (hf : s.eng ≠ .faulted) (hr : s.eng ≠ .running)
    (he : s.empty = true) : QueueRun [.pop] s (s.respond 0x100) s.queue [.success 0x100] :=
  ⟨execAll_cons (exec_pop_of_empty hf hr he), rfl, rfl, hs.respond 0x100, rfl, rfl⟩

/-- As many pushes as the buffer has room for append their elements (R102(a)). -/
theorem exists_queueRun_pushes (vs : List Byte) (hs : s.CursorsOk) (hne : s.eng ≠ .faulted)
    (hroom : s.queue.length + vs.length < s.cfg.rbN) :
    ∃ t, QueueRun (vs.map .push) s t (s.queue ++ vs) (List.replicate vs.length (.success 1)) := by
  induction vs generalizing s with
  | nil => exact ⟨s, by simpa using QueueRun.nil hs⟩
  | cons v vs ih =>
    have hfull : s.full = false := by
      rw [Bool.eq_false_iff, Ne, full_iff_queue hs]
      simp only [List.length_cons] at hroom
      omega
    have hfirst := queueRun_push v hs hne hfull
    obtain ⟨t, hrest⟩ := ih hfirst.cursors hne (by
      rw [hfirst.queue, hfirst.cfg]
      simpa [Nat.add_assoc, Nat.add_comm 1] using hroom)
    rw [hfirst.queue, List.append_assoc] at hrest
    exact ⟨t, hfirst.append hrest⟩

/-- As many pops as there are elements respond with them in order and leave the buffer empty (R102(b)). -/
theorem exists_queueRun_pops (vs : List Byte) (hs : s.CursorsOk) (hf : s.eng ≠ .faulted) (hr : s.eng ≠ .running)
    (hq : s.queue = vs) :
    ∃ t, QueueRun (List.replicate vs.length .pop) s t [] (vs.map fun v => .success (v.setWidth 32)) := by
  induction vs generalizing s with
  | nil => exact ⟨s, by simpa [hq] using QueueRun.nil hs⟩
  | cons v vs ih =>
    obtain ⟨t, hfirst⟩ := queueRun_pop hs hf hr hq
    obtain ⟨u, hrest⟩ := ih hfirst.cursors (by rwa [hfirst.eng]) (by rwa [hfirst.eng]) hfirst.queue
    exact ⟨u, hfirst.append hrest⟩

end Sys2Proof.Machine
end

section
/-! PROOFS. The obligations of spec/40_ring_buffer.md. -/

namespace Sys2Proof.Machine

/-- Settles O12: the state of a push with room; the write reads back at WR and nowhere else. -/
theorem pushStoresElement : Obligations.PushStoresElement := by
  intro v s hne hroom hw
  exact ⟨_, exec_push_of_room v hne (full_eq_false_iff.mpr hroom) hw, Memory.read_write_same s.mem s.wr v,
    fun i hi => Memory.read_write_other s.mem v hi, rfl⟩

/-- Settles O13: `rb_push` refuses. -/
theorem pushIntoFullChangesNothing : Obligations.PushIntoFullChangesNothing :=
  fun v _ hne hf => exec_push_of_full v hne (full_iff.mpr hf)

/-- Settles O14: the response leaves the ring buffer as the push left it. -/
theorem pushMovesFlags : Obligations.PushMovesFlags := by
  intro v s hcap hr hw hne hroom
  exact ⟨_, exec_push_of_room v hne hroom hw,
    flags_of_pushed ⟨rfl, rfl, rfl, rfl, rfl⟩ ⟨hcap, hr, hw⟩ hroom⟩

/-- Settles O15: `rb_pop` delivers the slot at RD. -/
theorem popReturnsOldest : Obligations.PopReturnsOldest :=
  fun _ hf hr he hrd => exec_pop_of_element hf hr (empty_eq_false_iff.mpr he) hrd

/-- Settles O16: by induction on the number of POPs; after one the buffer is as empty as before. -/
theorem underrunIsIdempotent : Obligations.UnderrunIsIdempotent := by
  intro n s hf hr he
  induction n generalizing s with
  | zero => simp [execAll]
  | succ n ih =>
    rw [List.replicate_succ, execAll_cons (exec_pop_of_empty hf hr (empty_iff.mpr he)),
      ih (s := s.respond 0x100) hf hr he]
    simp [State.respond, Response.success, List.replicate_succ]

/-- Settles O17: POP and DISPATCH both leave the ring buffer with RD moved on, and write only outside it. -/
theorem deliveryMovesFlags : Obligations.DeliveryMovesFlags := by
  intro i s hcap hrd hw he hi
  have hs : s.CursorsOk := ⟨hcap, hrd, hw⟩
  rcases hi with ⟨rfl, hf, hr⟩ | ⟨rfl, hd⟩
  · exact ⟨_, exec_pop_of_element hf hr he hrd, flags_of_delivered ⟨rfl, rfl, rfl, rfl, rfl⟩ hs he⟩
  · exact ⟨_, exec_dispatch_of_element hd he hrd, flags_of_delivered ⟨rfl, rfl, rfl, rfl, rfl⟩ hs he⟩

/-- Settles O20: the pushes fill the empty queue to RB_N - 1 elements, and then the buffer is full. -/
theorem usableCapacity : Obligations.UsableCapacity := by
  intro vs v s hinv hne he hlen
  have hs := hinv.cursors
  have hq : s.queue = [] := (empty_iff_queue hs).mp (empty_iff.mpr he)
  have hcap := hs.cap
  obtain ⟨t, hpushes⟩ := exists_queueRun_pushes vs hs hne (by rw [hq, List.length_nil]; omega)
  have hfull : t.full = true := by
    rw [full_iff_queue hpushes.cursors, hpushes.queue, hpushes.cfg, hq, List.nil_append]
    omega
  have hall := hpushes.append (queueRun_push_full v hpushes.cursors (by rwa [hpushes.eng]) hfull)
  exact ⟨_, hall.run, hall.responses.trans (by simp [Response.success, hlen])⟩

/-- Settles O21: the pushes put the values in the empty queue, the pops take them off it in order, and the buffer is
empty again. -/
theorem roundTrip : Obligations.RoundTrip := by
  intro vs s hinv heng he hlen
  have hs := hinv.cursors
  have hq : s.queue = [] := (empty_iff_queue hs).mp (empty_iff.mpr he)
  have hcap := hs.cap
  obtain ⟨t, hpushes⟩ := exists_queueRun_pushes vs hs (by simp [heng]) (by rw [hq, List.length_nil]; omega)
  have hteng : t.eng = .uninit := hpushes.eng.trans heng
  obtain ⟨u, hpops⟩ := exists_queueRun_pops vs hpushes.cursors (by simp [hteng]) (by simp [hteng])
    (by rw [hpushes.queue, hq, List.nil_append])
  have hueng : u.eng = .uninit := hpops.eng.trans hteng
  have hall := (hpushes.append hpops).append (queueRun_pop_empty hpops.cursors (by simp [hueng]) (by simp [hueng])
    ((empty_iff_queue hpops.cursors).mpr hpops.queue))
  exact ⟨_, hall.run, hall.responses.trans (by simp [Response.success])⟩

/-- Settles O49: each state test takes its fault. -/
theorem stateTestsFault : Obligations.StateTestsFault :=
  ⟨fun _ => exec_pop_of_running, fun _ => exec_init_of_not_uninit, fun _ => exec_fill_of_not_running⟩

end Sys2Proof.Machine
end

section
/-! PROOFS. What INIT, FILL and the FILL iteration answer under each condition of spec/41_engine.md R120 to R131. -/

namespace Sys2Proof.Machine

variable {s t : State}

/-- What INIT rejects (R122). -/
theorem misconfig_eq_true_iff (c : Config) : misconfig c = true ↔
    c.srcLen = 0 ∨ c.clkHz = 0 ∨ c.targetRate = 0 ∨ c.pwmTop = 0 ∨ divRaw c < divOne c ∨
      divRawMax c < divRaw c := by
  rw [← Bool.not_eq_false, misconfig_eq_false_iff, not_and_or, not_and_or, not_and_or, not_and_or, not_and_or]
  simp only [ne_eq, not_not, not_le]

theorem exec_init_of_accepted (he : s.eng = .uninit) (hok : misconfig s.cfg = false) :
    exec .init s = .next ((s.initEffects (divRaw s.cfg)).respond 0) := by
  simp [exec, execInit, he, hok]

theorem exec_init_of_misconfigured (he : s.eng = .uninit) (hbad : misconfig s.cfg = true) :
    exec .init s = .next (s.haltEngine.raise .misconfig) := by
  simp [exec, execInit, he, hbad]

theorem exec_fill_of_running (hrun : s.eng = .running) : exec .fill s = .next s.acceptFill := by
  simp [exec, execFill, hrun]

/-- The neutral duty is half of the counter period, rounded down (R123). -/
theorem half_period_toNat (top : Half) : (top >>> 1).toNat = top.toNat / 2 := by
  rw [BitVec.toNat_ushiftRight, Nat.shiftRight_one]

/-- The flags of an empty buffer (R120). -/
theorem flags_of_empty (h : s.CursorsOk) (he : s.rd = s.wr) : s.empty = true ∧ s.full = false ∧ s.count = 0 := by
  have hempty : s.empty = true := empty_iff.mpr he
  have hcount : s.count = 0 := (empty_iff_count h).mp hempty
  have hcap := h.cap
  refine ⟨hempty, ?_, hcount⟩
  rw [Bool.eq_false_iff, Ne, full_iff_count h]
  omega

/-- A FILL iteration with room pushes the source byte at half the offset (R131). -/
theorem fillIter_of_room {b : Byte} (hs : s.cfg.src[s.srcOff.toNat / 2]? = some b) (hroom : s.full = false)
    (hw : s.wr < s.cfg.rbN) : fillIter s = .next (s.pushed b).advanceFill := by
  simp [fillIter, State.readSource, hs, rbPush_of_room b hroom hw]

/-- A FILL iteration that reads within SRCROM and finds the buffer full completes the FILL (R131). -/
theorem fillIter_eq_finishFill (hs : s.srcOff.toNat / 2 < s.cfg.srcLen) (hf : s.full = true) :
    fillIter s = .next s.finishFill := by
  simp [fillIter, readSource_of_lt hs, rbPush_of_full _ hf]

end Sys2Proof.Machine
end

section
/-! PROOFS. The source offset (spec/10_state.md R23, R39(c)): in a running block a FILL iteration reads within SRCROM
and moves SRCOFF on by one modulo SRC_MOD, and no other turn but RESET moves it (spec/41_engine.md R133). -/

namespace Sys2Proof.Machine

variable {s t : State}

/-- In a running block half the offset is an index of SRCROM (R39(c)). -/
theorem State.Inv.source_lt (h : s.Inv) (hrun : s.eng = .running) : s.srcOff.toNat / 2 < s.cfg.srcLen := by
  obtain ⟨hoff, -⟩ := h.running hrun
  rw [srcMod] at hoff
  omega

/-- SRC_MOD fits SRCOFF, since SRC_LEN is at most 2^30 (R5, R23). -/
theorem State.Inv.srcMod_lt (h : s.Inv) : srcMod s.cfg < 2 ^ 32 := by
  obtain ⟨-, -, -, hlen⟩ := h.config
  rw [srcMod]
  omega

/-- SRCOFF moves on by one modulo SRC_MOD (R131). -/
theorem State.Inv.advanceFill_srcOff_toNat (h : s.Inv) (hrun : s.eng = .running) :
    s.advanceFill.srcOff.toNat = (s.srcOff.toNat + 1) % srcMod s.cfg := by
  obtain ⟨hoff, -⟩ := h.running hrun
  rw [advanceFill_srcOff, BitVec.toNat_ofNat]
  exact Nat.mod_eq_of_lt ((Nat.mod_lt _ (Nat.zero_lt_of_lt hoff)).trans h.srcMod_lt)

/-- With room a FILL iteration of a running block pushes. -/
theorem State.Inv.fillIter_pushes (h : s.Inv) (hrun : s.eng = .running) (hroom : s.full = false) :
    ∃ b, fillIter s = .next (s.pushed b).advanceFill :=
  ⟨_, fillIter_of_room (List.getElem?_eq_getElem (h.source_lt hrun)) hroom h.wrInRange⟩

/-- What a turn does to the sequence of pushed source bytes (R133): nothing, or it pushes the next one and SRCOFF moves
on. -/
def SourceStep (a : Agent) (s t : State) : Prop :=
  (fillPushedPiece a s t = [] ∧ t.srcOff = s.srcOff) ∨
    ∃ b, fillPushedPiece a s t = [b] ∧ s.cfg.src[s.srcOff.toNat / 2]? = some b ∧
      t.srcOff.toNat = (s.srcOff.toNat + 1) % srcMod s.cfg

/-- A turn that leaves WR where it was pushed nothing. -/
theorem fillPushedPiece_of_wr_eq {a : Agent} (h : t.wr = s.wr) : fillPushedPiece a s t = [] := by
  simp [fillPushedPiece, pushedPiece, h]

/-- A turn without a FILL in progress is no FILL iteration. -/
theorem fillPushedPiece_of_idle {a : Agent} (h : s.fillBusy = false) : fillPushedPiece a s t = [] := by
  simp [fillPushedPiece, h]

/-- A turn of another agent than HOST is no FILL iteration. -/
theorem fillPushedPiece_of_not_host {a : Agent} (h : a ≠ .host) : fillPushedPiece a s t = [] := by
  simp [fillPushedPiece, h]

/-- The byte of a FILL iteration that pushes. -/
theorem fillPushedPiece_of_pushed {b : Byte} (hs : s.CursorsOk) (hbusy : s.fillBusy = true) :
    fillPushedPiece .host s (s.pushed b).advanceFill = [b] := by
  have hslot : (s.pushed b).advanceFill.slotValue s.wr = b := slotValue_of_read (Memory.read_write_same s.mem s.wr b)
  simp [fillPushedPiece, pushedPiece, hbusy, hslot, nextCursor_ne hs hs.wr]

/-- No instruction but RESET moves SRCOFF in a running block: INIT writes it in UNINIT only (R37, R120). -/
theorem Effect.srcOff_eq {i : Instr} (h : Effect i s t) (hi : i ≠ .reset) (hrun : s.eng = .running) :
    t.srcOff = s.srcOff := by
  rcases h.init_or_sameProgram hi with ⟨-, hu, -⟩ | same
  · simp [hrun] at hu
  · exact same.srcOff

/-- Every turn of a running block short of RESET is one step of the source sequence. -/
theorem Turn.sourceStep {a : Agent} (h : Turn a s t) (hs : s.Inv) (hrun : s.eng = .running) (ha : a ≠ .resetLogic) :
    SourceStep a s t := by
  cases h with
  | hostWaits | fillDone => exact .inl ⟨fillPushedPiece_of_wr_eq rfl, rfl⟩
  | @fillPushed _ b _ hbusy hroom _ hb =>
    exact .inr ⟨b, fillPushedPiece_of_pushed hs.cursors hbusy, hb,
      (hs.pushed b hroom).advanceFill_srcOff_toNat hrun⟩
  | illegal _ hidle => exact .inl ⟨fillPushedPiece_of_idle hidle, rfl⟩
  | command _ hidle _ hd he =>
    exact .inl ⟨fillPushedPiece_of_idle hidle, he.srcOff_eq (ne_reset_of_decodeCommand hd) hrun⟩
  | tick he | dispatch he => exact .inl ⟨fillPushedPiece_of_not_host (by decide), he.srcOff_eq (by decide) hrun⟩
  | reset => exact absurd rfl ha

/-- From SRCOFF on, the bytes that the FILL iterations of a running block push are the source bytes at half the
offset, in order (R133). -/
theorem State.Inv.fillPushed_getElem? {agents : List Agent} (hs : s.Inv) (hrun : s.eng = .running)
    (hreset : .resetLogic ∉ agents) {n : Nat} (hn : n < (alongTurns fillPushedPiece agents s).length) :
    (alongTurns fillPushedPiece agents s)[n]? = s.cfg.src[(s.srcOff.toNat + n) % srcMod s.cfg / 2]? := by
  induction agents generalizing s n with
  | nil => simp [alongTurns] at hn
  | cons a rest ih =>
    have ha : a ≠ .resetLogic := (List.ne_of_not_mem_cons hreset).symm
    have hrest : .resetLogic ∉ rest := List.not_mem_of_not_mem_cons hreset
    obtain ⟨u, hu⟩ := agentTurn_answers a hs.accessesExist
    have hturn := agentTurn_turn hu
    have hurun : u.eng = .running := (hturn.ticking ha (hs.ticking hrun)).eng
    have hlater {k : Nat} := ih (hturn.inv hs) hurun hrest (n := k)
    rw [hturn.cfg_eq] at hlater
    rw [alongTurns_cons _ _ hu] at hn ⊢
    rcases hturn.sourceStep hs hrun ha with ⟨hpiece, hoff⟩ | ⟨b, hpiece, hb, hoff⟩
    · rw [hpiece, List.nil_append] at hn ⊢
      rw [hlater hn, hoff]
    · rw [hpiece, List.singleton_append] at hn ⊢
      cases n with
      | zero => rw [List.getElem?_cons_zero, Nat.add_zero, Nat.mod_eq_of_lt (hs.running hrun).1, hb]
      | succ n =>
        rw [List.getElem?_cons_succ, hlater (Nat.lt_of_succ_lt_succ hn), hoff, Nat.mod_add_mod, Nat.add_assoc,
          Nat.add_comm 1 n]

end Sys2Proof.Machine
end

section
/-! PROOFS. FILL iterations with no step of another agent between them (spec/41_engine.md R132(a)). -/

namespace Sys2Proof.Machine

variable {n : Nat} {s t : State}

theorem fillIters_cons (h : fillIter s = .next t) : fillIters (n + 1) s = fillIters n t := by
  simp [fillIters, h]

/-- One more iteration at the end. -/
theorem fillIters_succ (h : fillIters n s = .next t) : fillIters (n + 1) s = fillIter t := by
  induction n generalizing s with
  | zero =>
    cases h
    rw [fillIters]
    cases fillIter t <;> rfl
  | succ n ih =>
    rw [fillIters] at h
    split at h
    · next u hu =>
      rw [fillIters_cons hu]
      exact ih h
    · cases h
    · cases h

/-- `n` iterations of a FILL take `s` to `t`, and each of them pushed. -/
structure FillProgress (n : Nat) (s t : State) : Prop where
  iters : fillIters n s = .next t
  inv : t.Inv
  busy : t.fillBusy = true
  cfg : t.cfg = s.cfg
  count : t.count = s.count + n
  srcOff : t.srcOff.toNat = (s.srcOff.toNat + n) % srcMod s.cfg
  fillCnt : t.fillCnt = s.fillCnt + BitVec.ofNat 32 n
  responses : t.responses = s.responses

theorem FillProgress.zero (hs : s.Inv) (hbusy : s.fillBusy = true) : FillProgress 0 s s :=
  ⟨rfl, hs, hbusy, rfl, rfl, (Nat.mod_eq_of_lt (hs.running (hs.eng_of_fillBusy hbusy)).1).symm,
    (BitVec.add_zero _).symm, rfl⟩

/-- With room left, one more iteration pushes (R131). -/
theorem FillProgress.succ (h : FillProgress n s t) (hroom : t.full = false) : ∃ u, FillProgress (n + 1) s u := by
  have hrun := h.inv.eng_of_fillBusy h.busy
  obtain ⟨b, hb⟩ := h.inv.fillIter_pushes hrun hroom
  have hpushed := h.inv.pushed b hroom
  exact ⟨(t.pushed b).advanceFill,
    { iters := (fillIters_succ h.iters).trans hb
      inv := hpushed.advanceFill hrun
      busy := h.busy
      cfg := h.cfg
      count := by
        change (t.pushed b).count = _
        rw [count_pushed b h.inv.cursors hroom, h.count, Nat.add_assoc]
      srcOff := by
        rw [hpushed.advanceFill_srcOff_toNat hrun, pushed_srcOff, pushed_cfg, h.srcOff, h.cfg, Nat.mod_add_mod,
          Nat.add_assoc]
      fillCnt := by
        rw [advanceFill_fillCnt, pushed_fillCnt, h.fillCnt, BitVec.add_assoc, BitVec.ofNat_add, BitVec.ofNat_eq_ofNat]
      responses := h.responses }⟩

/-- As many iterations as there are free slots all push (R132(a)). -/
theorem exists_fillProgress (hs : s.Inv) (hbusy : s.fillBusy = true) (hn : n + s.count < s.cfg.rbN) :
    ∃ t, FillProgress n s t := by
  induction n with
  | zero => exact ⟨s, .zero hs hbusy⟩
  | succ n ih =>
    obtain ⟨t, ht⟩ := ih (by omega)
    refine ht.succ ?_
    rw [Bool.eq_false_iff, Ne, full_iff_count ht.inv.cursors, ht.count, ht.cfg]
    omega

/-- The iteration that finds the buffer full completes the FILL (R131). -/
theorem FillProgress.completes (h : FillProgress n s t) (hf : t.full = true) :
    fillIters (n + 1) s = .next t.finishFill :=
  (fillIters_succ h.iters).trans (fillIter_eq_finishFill (h.inv.source_lt (h.inv.eng_of_fillBusy h.busy)) hf)

end Sys2Proof.Machine
end

section
/-! PROOFS. The obligations of spec/41_engine.md. -/

namespace Sys2Proof.Machine

/-- Settles O24: the configuration passes R122, so INIT leaves the state of R123. -/
theorem initProgramsTheBlock : Obligations.InitProgramsTheBlock := by
  intro s he hsrc hclk hrate htop hlow hhigh
  have hok : misconfig s.cfg = false :=
    (misconfig_eq_false_iff s.cfg).mpr ⟨hsrc, hclk, hrate, htop, hlow, hhigh⟩
  refine ⟨_, exec_init_of_accepted he hok, fun i hi => ?_, fun i hi => ?_, half_period_toNat _, half_period_toNat _,
    rfl⟩
  · rw [respond_mem, initEffects_mem, Memory.read_zeros, if_pos hi]
  · rw [respond_mem, initEffects_mem, Memory.read_zeros, if_neg (Nat.not_lt.mpr hi)]

/-- Settles O31: the m iterations with room all push, and then the buffer is full. -/
theorem fillFillsToCapacity : Obligations.FillFillsToCapacity := by
  intro s m hs hrun hm
  have hcap := hs.cursors.cap
  have hs₀ : s.acceptFill.Inv := hs.acceptFill hrun
  have hcount : s.acceptFill.count = s.count := rfl
  have hprogress {n : Nat} (hn : n ≤ m) : ∃ u, FillProgress n s.acceptFill u :=
    exists_fillProgress hs₀ rfl (by rw [hcount, acceptFill_cfg]; omega)
  obtain ⟨u, hu⟩ := hprogress le_rfl
  have hfull : u.full = true := by
    rw [full_iff_count hu.inv.cursors, hu.count, hu.cfg, hcount, acceptFill_cfg]
    omega
  refine ⟨_, _, exec_fill_of_running hrun, hu.completes hfull, fun n hn => ?_, rfl, hfull, ?_, hu.srcOff⟩
  · obtain ⟨v, hv⟩ := hprogress hn
    exact ⟨v, hv.iters, hv.busy⟩
  · rw [finishFill_responses, hu.responses, hu.fillCnt, acceptFill_responses, acceptFill_fillCnt,
      BitVec.ofNat_eq_ofNat, BitVec.zero_add]
    rfl

/-- Settles O32: the delivery makes room for the next iteration's push. -/
theorem fillGoesOnAfterDispatch : Obligations.FillGoesOnAfterDispatch := by
  intro s hs hbusy hd he
  have hrun := eng_of_dispatchEnabled hd
  have hexec := exec_dispatch_of_element hd he hs.rdInRange
  have hinv := (exec_effect hexec).inv hs
  have hring : SameRing s.advanceRd (s.advanceRd.commitCompare ((s.slotValue s.rd).setWidth 16)).clearWrap :=
    ⟨rfl, rfl, rfl, rfl, rfl⟩
  obtain ⟨hroom, hcount, -⟩ := flags_of_delivered hring hs.cursors he
  obtain ⟨b, hb⟩ := hinv.fillIter_pushes hrun hroom
  exact ⟨_, _, hexec, hb, hbusy, (count_pushed b hinv.cursors hroom).trans hcount, rfl⟩

/-- Settles O33: the source sequence, from SRCOFF = 0 on. -/
theorem sourceBytesInOrder : Obligations.SourceBytesInOrder := by
  intro agents s hs hrun hoff hreset n hn
  rw [hs.fillPushed_getElem? hrun hreset hn, hoff, BitVec.ofNat_eq_ofNat, BitVec.toNat_zero, Nat.zero_add]

/-- Settles O9: the turn is HOST's, which iterates the FILL; an iteration does not write the port. -/
theorem stepIteratesFillWhileBusy : Obligations.StepIteratesFillWhileBusy := by
  intro s agents hsched hb hbusy
  have hstep : step s = fillIter { s with sched := agents } := by
    rw [step_of_sched hsched]
    exact hostTurn_of_filling hb hbusy
  refine ⟨hstep, fun t ht => ?_⟩
  rw [fillIter_frame (hstep.symm.trans ht)]

/-- Settles O25: a successful INIT leaves both cursors and WRAP_FLAG 0. -/
theorem initClearsFlags : Obligations.InitClearsFlags := by
  intro s t hcap he h hrun
  cases exec_effect h with
  | initHalted hf => simp [he] at hf
  | initAgain _ hu => exact absurd he hu
  | initMisconfigured => cases hrun
  | initDone =>
    have hcursors : ((s.initEffects (divRaw s.cfg)).respond 0).CursorsOk :=
      ⟨hcap, Nat.zero_lt_of_lt hcap, Nat.zero_lt_of_lt hcap⟩
    obtain ⟨hempty, hfull, hcount⟩ := flags_of_empty hcursors rfl
    exact ⟨hempty, hfull, hcount, rfl, rfl⟩

/-- Settles O26: the conditions are those of R122. -/
theorem misconfiguredInitHalts : Obligations.MisconfiguredInitHalts :=
  fun s he hbad => exec_init_of_misconfigured he ((misconfig_eq_true_iff s.cfg).mpr hbad)

/-- Settles O27: by evaluation, configuration by configuration. -/
theorem workedDividers : Obligations.WorkedDividers := by
  unfold Obligations.WorkedDividers
  decide

/-- Settles O28: the accepting step. -/
theorem fillIsAccepted : Obligations.FillIsAccepted := fun _ => exec_fill_of_running

/-- Settles O29: the state of a push with room, SRCOFF and FILL_CNT moved on. -/
theorem fillIterationPushesSource : Obligations.FillIterationPushesSource := by
  intro s b hb hroom hw
  exact ⟨_, fillIter_of_room hb hroom hw, Memory.read_write_same s.mem s.wr b,
    fun i hi => Memory.read_write_other s.mem b hi, rfl⟩

/-- Settles O30: `rb_push` refuses, and the FILL responds with the count. -/
theorem fillIterationCompletes : Obligations.FillIterationCompletes := fun _ => fillIter_eq_finishFill

end Sys2Proof.Machine
end

section
/-! PROOFS. What NOP answers, and the obligations of spec/42_system.md. -/

namespace Sys2Proof.Machine

/-- NOP responds 0, whatever the engine state (R150). -/
theorem exec_nop (s : State) : exec .nop s = .next (s.respond 0) := rfl

/-- Settles O35: NOP only responds, and a response writes nothing but the list of responses. -/
theorem nopOnlyResponds : Obligations.NopOnlyResponds := exec_nop

end Sys2Proof.Machine
end

section
/-! PROOFS. What TICK and DISPATCH answer under each condition of spec/43_pwm_dispatch.md R170 to R174. -/

namespace Sys2Proof.Machine

variable {s : State}

/-- R172's condition in the pieces of state that IRQ is made of (R12). -/
theorem dispatchEnabled_iff :
    s.dispatchEnabled = true ↔ s.eng = .running ∧ s.wrapFlag = true ∧ s.inte = true ∧ s.unmask = true := by
  simp [State.dispatchEnabled, State.irq, and_assoc]

/-- A missing part of R172's condition disables DISPATCH. -/
theorem dispatchEnabled_eq_false_iff : s.dispatchEnabled = false ↔
    s.eng ≠ .running ∨ s.wrapFlag = false ∨ s.inte = false ∨ s.unmask = false := by
  rw [Bool.eq_false_iff, Ne, dispatchEnabled_iff, not_and_or, not_and_or, not_and_or]
  simp only [ne_eq, Bool.not_eq_true]

theorem exec_tick_of_enabled (hp : s.pwmEn = true) : exec .tick s = .next s.advanceCounter := by
  simp [exec, execTick, hp]

theorem exec_tick_of_disabled (hp : s.pwmEn = false) : exec .tick s = .next s := by
  simp [exec, execTick, hp]

theorem exec_dispatch_of_empty (hd : s.dispatchEnabled = true) (he : s.empty = true) :
    exec .dispatch s = .next (s.commitCompare 0).clearWrap := by
  simp [exec, execDispatch, hd, rbPop_of_empty he, elemDefault]

theorem exec_dispatch_of_disabled (hd : s.dispatchEnabled = false) : exec .dispatch s = .next s := by
  simp [exec, execDispatch, hd]

end Sys2Proof.Machine
end

section
/-! PROOFS. Wraps and DISPATCHes along the turns (spec/43_pwm_dispatch.md R171(a)): WRAP_FLAG is the wrap that no
DISPATCH has answered yet, so it pays for the next one. -/

namespace Sys2Proof.Machine

variable {a : Agent} {i : Instr} {s t : State}

/-- No instruction but TICK sets WRAP_FLAG (R37). -/
theorem Effect.wrapFlag_le (h : Effect i s t) (hi : i ≠ .tick) : t.wrapFlag ≤ s.wrapFlag := by
  cases h with
  | initDone | reset | dispatchEmpty | dispatchDone => exact Bool.false_le _
  | tickOff | tickDone => exact absurd rfl hi
  | _ => exact le_rfl

/-- HOST's turn is no TICK, so it does not set WRAP_FLAG. -/
theorem Turn.host_wrapFlag_le (h : Turn .host s t) : t.wrapFlag ≤ s.wrapFlag := by
  cases h with
  | hostWaits | fillDone | fillPushed | illegal => exact le_rfl
  | command _ _ _ hd he =>
    have hcommand := isCommand_of_decodeCommand hd
    exact he.wrapFlag_le fun htick => by simp [htick, Instr.isCommand] at hcommand

/-- A turn's account of WRAP_FLAG: a DISPATCH uses up the wrap that the flag stands for, and only a wrap sets the
flag. -/
def WrapAccount (a : Agent) (s t : State) : Prop :=
  (dispatchPiece a s t).length + t.wrapFlag.toNat ≤ (wrapPiece a s t).length + s.wrapFlag.toNat

/-- A turn without a DISPATCH that does not set the flag. -/
theorem wrapAccount_of_silent (hnone : dispatchPiece a s t = []) (hflag : t.wrapFlag ≤ s.wrapFlag) :
    WrapAccount a s t := by
  rw [WrapAccount, hnone, List.length_nil, Nat.zero_add]
  exact (Bool.toNat_le_toNat hflag).trans (Nat.le_add_left _ _)

/-- The turn of another agent than DISP is no DISPATCH. -/
theorem dispatchPiece_of_not_disp (ha : a ≠ .disp) : dispatchPiece a s t = [] := if_neg fun h => ha h.1

theorem dispatchPiece_of_disabled (hd : s.dispatchEnabled = false) : dispatchPiece a s t = [] := by
  simp [dispatchPiece, hd]

/-- A DISPATCH finds the flag set and clears it (R172). -/
theorem wrapAccount_of_dispatch (hd : s.dispatchEnabled = true) (hclear : t.wrapFlag = false) :
    WrapAccount .disp s t := by
  obtain ⟨-, hset, -⟩ := dispatchEnabled_iff.mp hd
  simp [WrapAccount, dispatchPiece, hd, hset, hclear]

/-- A TICK sets the flag only where it is a wrap (R170). -/
theorem wrapAccount_of_tick (hp : s.pwmEn = true) : WrapAccount .tmr s s.advanceCounter := by
  by_cases htop : s.ctr = s.topReg
  · simp [WrapAccount, dispatchPiece, wrapPiece, hp, htop, advanceCounter_of_top s htop]
  · exact wrapAccount_of_silent (dispatchPiece_of_not_disp (by decide))
      (by rw [advanceCounter_of_not_top s htop])

/-- Every turn keeps the account. -/
theorem Turn.wrapAccount (h : Turn a s t) : WrapAccount a s t := by
  cases a with
  | host => exact wrapAccount_of_silent (dispatchPiece_of_not_disp (by decide)) h.host_wrapFlag_le
  | resetLogic =>
    cases h
    exact wrapAccount_of_silent (dispatchPiece_of_not_disp (by decide)) (Bool.false_le _)
  | tmr =>
    cases h with
    | tick he =>
      cases he with
      | tickOff => exact wrapAccount_of_silent (dispatchPiece_of_not_disp (by decide)) le_rfl
      | tickDone hp => exact wrapAccount_of_tick hp
  | disp =>
    cases h with
    | dispatch he =>
      cases he with
      | dispatchOff hd => exact wrapAccount_of_silent (dispatchPiece_of_disabled hd) le_rfl
      | dispatchEmpty hd | dispatchDone hd => exact wrapAccount_of_dispatch hd rfl

/-- Along any turns the DISPATCHes are at most the wraps and the one that WRAP_FLAG stands for at the start. -/
theorem dispatches_le_wraps_add_flag (agents : List Agent) (s : State) :
    (alongTurns dispatchPiece agents s).length ≤
      (alongTurns wrapPiece agents s).length + s.wrapFlag.toNat := by
  induction agents generalizing s with
  | nil => exact Nat.zero_le _
  | cons a rest ih =>
    cases hu : agentTurn a s with
    | next u =>
      have hfirst : WrapAccount a s u := (agentTurn_turn hu).wrapAccount
      have hlater := ih u
      rw [WrapAccount] at hfirst
      rw [alongTurns_cons _ _ hu, alongTurns_cons _ _ hu, List.length_append, List.length_append]
      omega
    | fault | refused => simp [alongTurns, hu]

end Sys2Proof.Machine
end

section
/-! PROOFS. The obligations of spec/43_pwm_dispatch.md. -/

namespace Sys2Proof.Machine

/-- Settles O47: WRAP_FLAG = 0 stands for no wrap at the start. -/
theorem dispatchesAtMostWraps : Obligations.DispatchesAtMostWraps := by
  intro agents s hflag
  simpa [hflag] using dispatches_le_wraps_add_flag agents s

/-- Settles O43: the enabled TICK advances the counter. -/
theorem tickCountsAndWraps : Obligations.TickCountsAndWraps := fun _ => exec_tick_of_enabled

/-- Settles O44: the enabled DISPATCH of an element. -/
theorem dispatchDeliversSample : Obligations.DispatchDeliversSample :=
  fun _ hrun hwrap hinte hunmask hne hrd =>
    exec_dispatch_of_element (dispatchEnabled_iff.mpr ⟨hrun, hwrap, hinte, hunmask⟩) (empty_eq_false_iff.mpr hne)
      hrd

/-- Settles O45: the enabled DISPATCH of an empty buffer. -/
theorem dispatchUnderrunWritesZero : Obligations.DispatchUnderrunWritesZero :=
  fun _ hrun hwrap hinte hunmask he =>
    exec_dispatch_of_empty (dispatchEnabled_iff.mpr ⟨hrun, hwrap, hinte, hunmask⟩) (empty_iff.mpr he)

/-- Settles O46: both leave the state where they are not enabled. -/
theorem disabledStepsWait : Obligations.DisabledStepsWait :=
  fun _ => ⟨exec_tick_of_disabled, fun h => exec_dispatch_of_disabled (dispatchEnabled_eq_false_iff.mpr h)⟩

end Sys2Proof.Machine
end

section
/-! PROOFS. The halted state (spec/60_exceptions.md R203): what the four refused commands answer there, and that no
step but RESET leaves it. -/

namespace Sys2Proof.Machine

variable {i : Instr} {a : Agent} {s t : State}

/-- The commands that the halted state refuses answer E_HALTED, before any other test (R203, R204). -/
theorem exec_of_faulted (he : s.eng = .faulted) (hi : i = .init ∨ (∃ v, i = .push v) ∨ i = .pop ∨ i = .fill) :
    exec i s = .next (s.raise .halted) := by
  rcases hi with rfl | ⟨v, rfl⟩ | rfl | rfl
  all_goals exact if_pos he

/-- INIT leaves UNINIT only, so no instruction but RESET leaves FAULTED (R24, R124). -/
theorem Effect.eng_faulted_of (h : Effect i s t) (hi : i ≠ .reset) (he : s.eng = .faulted) : t.eng = .faulted := by
  by_contra hne
  rcases h.of_eng_ne (he ▸ hne) with ⟨-, hu, -⟩ | ⟨hreset, -⟩
  · simp [he] at hu
  · exact hi hreset

/-- No turn but that of the reset logic leaves FAULTED. -/
theorem Turn.eng_faulted_of (h : Turn a s t) (ha : a ≠ .resetLogic) (he : s.eng = .faulted) : t.eng = .faulted := by
  cases h with
  | command _ _ _ hd hx => exact hx.eng_faulted_of (ne_reset_of_decodeCommand hd) he
  | tick hx | dispatch hx => exact hx.eng_faulted_of (by decide) he
  | reset => exact absurd rfl ha
  | _ => exact he

end Sys2Proof.Machine
end

section
/-! PROOFS. The obligations of spec/60_exceptions.md on the halted state and on turns without a step (R203, R208). -/

namespace Sys2Proof.Machine

/-- Settles O50: the four refusals, the two commands that run, the two agents that do not, and the way out. -/
theorem haltedEngine : Obligations.HaltedEngine := by
  intro s he
  have hne : s.eng ≠ .running := by simp [he]
  refine ⟨fun i hi => exec_of_faulted he hi, exec_nop s,
    fun r hr => ⟨_, view_of_le s hr, execRdreg_of_view (view_of_le s hr)⟩,
    fun r hr => execRdreg_of_reserved (view_of_reserved s hr), fun hinv => ?_,
    dispatchEnabled_eq_false_iff.mpr (.inl hne), fun a t h hleft => ?_⟩
  · obtain ⟨hoff, -⟩ := hinv.quiet hne
    exact ⟨hoff, hoff⟩
  · by_contra ha
    exact hleft ((agentTurn_turn h).eng_faulted_of ha he)

/-- Settles O10: the turn is HOST's, which is blocked, or has neither a FILL nor a word. -/
theorem hostWithoutStepWaits : Obligations.HostWithoutStepWaits := by
  intro s agents hsched
  rw [step_of_sched hsched]
  refine ⟨fun hstrict hrun hwrap hinte hunmask => hostTurn_of_blocked ?_,
    fun hbusy hport => hostTurn_of_no_word hbusy hport⟩
  exact Bool.and_eq_true_iff.mpr ⟨hstrict, dispatchEnabled_iff.mpr ⟨hrun, hwrap, hinte, hunmask⟩⟩

/-- Settles O11: a turn past the end of the schedule takes its agent from the draw counter. -/
theorem stepDrawsFreeAgent : Obligations.StepDrawsFreeAgent := fun _ => step_of_no_sched

end Sys2Proof.Machine
end

section
/-! PROOFS. What RESET answers (spec/70_reset_and_hazards.md R240), and the flags, the enabling conditions and the slots
of the state it leaves. -/

namespace Sys2Proof.Machine

variable (s : State)

/-- RESET is taken in every state (R240). -/
theorem exec_reset : exec .reset s = .next s.afterReset := rfl

@[simp] theorem afterReset_empty : s.afterReset.empty = true := empty_iff.mpr rfl

/-- COUNT is 0 for every RB_N, also for one outside R5's range. -/
@[simp] theorem afterReset_count : s.afterReset.count = 0 := by simp [State.count]

/-- With one slot only, the next cursor would be RD and the empty buffer would count as full, hence R5's bound. -/
theorem afterReset_full (hcap : 2 ≤ s.cfg.rbN) : s.afterReset.full = false := by
  have hpos : 0 < s.cfg.rbN := Nat.zero_lt_of_lt hcap
  have hcursors : s.afterReset.CursorsOk := ⟨hcap, hpos, hpos⟩
  obtain ⟨-, hfull, -⟩ := flags_of_empty hcursors rfl
  exact hfull

@[simp] theorem afterReset_irq : s.afterReset.irq = false := by simp [State.irq]

/-- TMR takes no step after RESET, since PWM_EN is 0 (R170, R240). -/
theorem afterReset_tmr_disabled : agentEnabled .tmr s.afterReset = false := afterReset_pwmEn s

/-- DISP takes no step after RESET, since ENG is UNINIT (R172, R240). -/
theorem afterReset_disp_disabled : agentEnabled .disp s.afterReset = false :=
  dispatchEnabled_eq_false_iff.mpr (.inl (by simp))

/-- RESET lists no slot (R242, log 2). -/
theorem afterReset_read (i : Nat) : Memory.read s.afterReset.mem i = none := Memory.read_nil i

/-- A slot that is not listed holds the free value of the latest RESET (R242, log 2). -/
theorem afterReset_slotValue (i : Nat) :
    s.afterReset.slotValue i = Config.unspecifiedSlot (s.resets + 1) i := by
  rw [State.slotValue, afterReset_read, Option.getD_none, afterReset_resets]

end Sys2Proof.Machine
end

section
/-! PROOFS. The obligations of spec/70_reset_and_hazards.md. -/

namespace Sys2Proof.Machine

/-- Settles O40: the step identifier is the row's, and each register and flag is read off the state RESET leaves. -/
theorem resetClearsTheBlock : Obligations.ResetClearsTheBlock := by
  refine ⟨Laws.TableRow.reset, fun s => ⟨s.afterReset, exec_reset s, ?_⟩⟩
  simpa [afterReset_tmr_disabled, afterReset_disp_disabled] using afterReset_full s

/-- Settles O41: the host's fields are carried over, and RBMEM lists nothing under the next count of RESETs. -/
theorem resetKeepsHostSide : Obligations.ResetKeepsHostSide := fun s =>
  ⟨s.afterReset, exec_reset s, afterReset_cfg s, afterReset_port s, afterReset_sched s, afterReset_draws s,
    afterReset_responses s, afterReset_compares s, fun i => ⟨afterReset_read s i, afterReset_slotValue s i⟩⟩

end Sys2Proof.Machine
end

section
/-! PROOFS. The canonical form of RBMEM (spec/20_memory.md section 1, log 3) is kept by every step: only a push, INIT
and RESET write memory, and each leaves rising slots. -/

namespace Sys2Proof.Machine

variable {s t : State}

/-- Whose turn it is does not matter to RBMEM. -/
@[simp] theorem takeTurn_mem (s : State) : s.takeTurn.2.mem = s.mem := by
  obtain ⟨q, n, hq⟩ := takeTurn_state s
  rw [hq]

/-- PUSH writes one slot (R100), INIT every slot (R123), and RESET lists none (R242). -/
theorem Effect.mem_wf {i : Instr} (h : Effect i s t) (hs : Memory.wf s.mem) : Memory.wf t.mem := by
  cases h with
  | initDone => exact Memory.wf_zeros s.cfg.rbN
  | pushDone v => exact Memory.wf_write s.wr v hs
  | reset => exact Memory.wf_reset
  | tickDone => rwa [advanceCounter_mem]
  | _ => exact hs

/-- Beside its instruction, a turn may write RBMEM as a FILL iteration that pushes (R131). -/
theorem Turn.mem_wf {a : Agent} (h : Turn a s t) (hs : Memory.wf s.mem) : Memory.wf t.mem := by
  cases h with
  | fillPushed => exact Memory.wf_write s.wr _ hs
  | command _ _ _ _ he | tick he | dispatch he => exact he.mem_wf hs
  | reset => exact Memory.wf_reset
  | _ => exact hs

/-- Settles O56: a step is a turn, and every turn keeps the canonical form. -/
theorem stepKeepsMemoryCanonical : Obligations.StepKeepsMemoryCanonical := by
  intro s t hs h
  exact (step_turn h).mem_wf (by rwa [takeTurn_mem])

end Sys2Proof.Machine
end
